-- ==== Sys2Proof/Word.lean ====
section
/-! DEFINITION. The word types of MDAE and the two shapes its residues come in: a block of three lanes
(R22) and a three by three matrix in row-major order (R29, R30). -/

namespace Sys2Proof

/-- A bus word and a command word (R61, R90). -/
abbrev Word := BitVec 32

/-- A residue register, W = 8 bits wide (R6, R22). -/
abbrev Residue := BitVec 8

/-- An offset into the 256-byte register window (R60, OFFW = 8 of R6). -/
abbrev Offset := BitVec 8

/-- A block: lanes 0, 1 and 2 in order (R22). -/
structure Vec3 (α : Type) where
  l0 : α
  l1 : α
  l2 : α
deriving DecidableEq, Repr

/-- A matrix in row-major order (R29); row `r` is `A[r][0..2]`. -/
structure Mat3 (α : Type) where
  row0 : Vec3 α
  row1 : Vec3 α
  row2 : Vec3 α
deriving DecidableEq, Repr

namespace Vec3

/-- The block whose lane `i` is `f i`. -/
def ofFn {α : Type} (f : Fin 3 → α) : Vec3 α := ⟨f 0, f 1, f 2⟩

/-- Lane `i`. -/
def get {α : Type} (x : Vec3 α) (i : Fin 3) : α :=
  match i with
  | 0 => x.l0
  | 1 => x.l1
  | 2 => x.l2

/-- The block with lane `i` replaced. -/
def set {α : Type} (x : Vec3 α) (i : Fin 3) (a : α) : Vec3 α :=
  match i with
  | 0 => { x with l0 := a }
  | 1 => { x with l1 := a }
  | 2 => { x with l2 := a }

/-- The same function on every lane. -/
def map {α β : Type} (f : α → β) (x : Vec3 α) : Vec3 β := ⟨f x.l0, f x.l1, f x.l2⟩

end Vec3

namespace Mat3

/-- The matrix whose entry at row `r` and column `c` is `f r c`. -/
def ofFn {α : Type} (f : Fin 3 → Fin 3 → α) : Mat3 α :=
  ⟨Vec3.ofFn (f 0), Vec3.ofFn (f 1), Vec3.ofFn (f 2)⟩

/-- Row `r`. -/
def row {α : Type} (a : Mat3 α) (r : Fin 3) : Vec3 α :=
  match r with
  | 0 => a.row0
  | 1 => a.row1
  | 2 => a.row2

/-- The entry at row `r` and column `c` (R9). -/
def get {α : Type} (a : Mat3 α) (r c : Fin 3) : α := (a.row r).get c

/-- The matrix with the entry at row `r` and column `c` replaced. -/
def set {α : Type} (a : Mat3 α) (r c : Fin 3) (x : α) : Mat3 α :=
  match r with
  | 0 => { a with row0 := a.row0.set c x }
  | 1 => { a with row1 := a.row1.set c x }
  | 2 => { a with row2 := a.row2.set c x }

/-- The same function on every entry. -/
def map {α β : Type} (f : α → β) (a : Mat3 α) : Mat3 β :=
  ⟨a.row0.map f, a.row1.map f, a.row2.map f⟩

end Mat3

end Sys2Proof
end

