-- ==== Sys2Proof/Config.lean ====
section
/-! DEFINITION. What an implementation of MDAE fixes (the parameter table of R6 and the constants of R24),
what the spec leaves OPEN (BASE), and the free values. LAT (R6, R260) has no constant here: it is the number
of turns the outside world takes before the engine's (log 2). -/

namespace Sys2Proof.Config

/-- ID, read-only: the ASCII bytes "MDAE" (R24). -/
def idValue : Word := 0x4D444145#32

/-- VERSION, read-only: command set version 1 (R24). -/
def versionValue : Word := 0x00000001#32

/-- MOD_RESET: the value of MOD after reset (R6, R38). -/
def modReset : Residue := 36#8

/-- The size of the register window in bytes (R60). -/
def windowSize : Nat := 256

/-- BASE: where the platform places the window (R6, R60, U3). OPEN, so no value can be proved of it. -/
opaque base : Nat

/-- The free values: what the hardware answers where the spec lets it answer "any 32-bit value" (R71, U1),
and rdata of a response to a write (log 6). The argument is the counter `State.draws`, so two draws may differ.
Nothing can be proved of a value (log 5). -/
opaque freeWord : Nat → Word

/-- The platform's decode of a host address (R60, R79): the offset it passes to MDAE, or none for an address
outside the window, which "never reaches MDAE". -/
def windowOffset (addr : Nat) : Option Offset :=
  if base ≤ addr ∧ addr < base + windowSize then some (BitVec.ofNat 8 (addr - base)) else none

end Sys2Proof.Config
end

