-- ==== Sys2Proof/Syntax.lean ====
section
/-! DEFINITION. The ten commands of the opcode map (R92), one constructor each, their operand fields (R94 to
R98) and the pseudo-commands of R103. -/

namespace Sys2Proof

/-- MS, the matrix operand (R94): K is the key matrix, R the result matrix. -/
inductive MatSel where
  | k
  | r
deriving DecidableEq, Repr

/-- VD and VS, a vector register V0 to V3 (R95). -/
inductive VReg where
  | v0
  | v1
  | v2
  | v3
deriving DecidableEq, Repr

/-- SSRC, the scalar operand (R96). `reserved` is code 3, which R99 calls illegal: no decoded word holds it and
`Instr.wellFormed` refuses it. -/
inductive ScalarSrc where
  | det
  | s
  | inv
  | reserved
deriving DecidableEq, Repr

/-- OP, the twist operation field (R97); `flag` is the operation TFLAG names at completion. -/
inductive OpSel where
  | add
  | sub
  | mul
  | flag
deriving DecidableEq, Repr

/-- A command (R92). Operands stand in the order of the assembler forms of R102. -/
inductive Instr where
  /-- `NOP` (R123). -/
  | nop
  /-- `SETMOD #m` (R124). -/
  | setmod (imm : BitVec 8)
  /-- `DET m` (R141). -/
  | det (m : MatSel)
  /-- `ADJ m` (R144). -/
  | adj (m : MatSel)
  /-- `MINV m` (R147). -/
  | minv (m : MatSel)
  /-- `SINV s` (R151). -/
  | sinv (src : ScalarSrc)
  /-- `MATVEC Vd, m, Vs` (R170). -/
  | matvec (vd : VReg) (m : MatSel) (vs : VReg)
  /-- `PARITY Vs` (R181). -/
  | parity (vs : VReg)
  /-- `TWIST Vd, Vs, op, s` (R185). -/
  | twist (vd vs : VReg) (op : OpSel) (src : ScalarSrc)
  /-- `UNTWIST Vd, Vs, op, s` (R188). -/
  | untwist (vd vs : VReg) (op : OpSel) (src : ScalarSrc)
deriving DecidableEq, Repr

namespace Instr

/-- `ENC Vd, Vs` (R103). -/
def enc (vd vs : VReg) : Instr := .matvec vd .k vs

/-- `DEC Vd, Vs` (R103). -/
def dec (vd vs : VReg) : Instr := .matvec vd .r vs

/-- `TWF Vd` (R103). -/
def twf (vd : VReg) : Instr := .twist vd vd .flag .det

/-- `UTWF Vd` (R103). -/
def utwf (vd : VReg) : Instr := .untwist vd vd .flag .det

/-- `CLASSIFY Vs` (R103). -/
def classify (vs : VReg) : Instr := .parity vs

end Instr

end Sys2Proof
end

