-- ==== Sys2Proof/WellFormed.lean ====
section
/-! DEFINITION. Which terms of `Instr` are commands of MDAE. The operand types leave one thing to check: SSRC = 3
is reserved in SINV, TWIST and UNTWIST (R96, R99). -/

namespace Sys2Proof

/-- R96: 0 to 2 name a scalar register, 3 is illegal. -/
def ScalarSrc.legal : ScalarSrc → Bool
  | .det => true
  | .s => true
  | .inv => true
  | .reserved => false

/-- The command is one that some legal word encodes (R99). -/
def Instr.wellFormed : Instr → Bool
  | .nop => true
  | .setmod _ => true
  | .det _ => true
  | .adj _ => true
  | .minv _ => true
  | .sinv src => src.legal
  | .matvec _ _ _ => true
  | .parity _ => true
  | .twist _ _ _ src => src.legal
  | .untwist _ _ _ src => src.legal

end Sys2Proof
end

