-- ==== Sys2Proof/Decode.lean ====
section
/-! DEFINITION. The decoder of R100, total on 32-bit words and refusing by name for the four reasons of R99; the
opcode map of R92 as a table of match and mask; and the encoder of R91 and R102. -/

namespace Sys2Proof

/-- Why a word is illegal: the four conditions of R99. -/
inductive IllegalReason where
  /-- OPC is 0xA to 0xF. -/
  | reservedOpcode
  /-- RSV, bits [27:17], is not 0. -/
  | reservedBits
  /-- A field the opcode does not use is not 0. -/
  | unusedField
  /-- SSRC = 3 in SINV, TWIST or UNTWIST. -/
  | reservedScalar
deriving DecidableEq, Repr

/-- What the decoder answers (R100): a command, or Illegal. -/
inductive Decoded where
  | command (i : Instr)
  | illegal (why : IllegalReason)
deriving DecidableEq, Repr

namespace Decoded

/-- The command, if there is one. -/
def command? : Decoded → Option Instr
  | .command i => some i
  | .illegal _ => none

end Decoded

/-! ## Operand codes (R94 to R97) -/

def MatSel.code : MatSel → BitVec 1
  | .k => 0#1
  | .r => 1#1

def MatSel.ofCode (b : BitVec 1) : MatSel := if b = 0#1 then .k else .r

def VReg.code : VReg → BitVec 2
  | .v0 => 0#2
  | .v1 => 1#2
  | .v2 => 2#2
  | .v3 => 3#2

def VReg.ofCode (b : BitVec 2) : VReg :=
  if b = 0#2 then .v0 else if b = 1#2 then .v1 else if b = 2#2 then .v2 else .v3

def ScalarSrc.code : ScalarSrc → BitVec 2
  | .det => 0#2
  | .s => 1#2
  | .inv => 2#2
  | .reserved => 3#2

def ScalarSrc.ofCode (b : BitVec 2) : ScalarSrc :=
  if b = 0#2 then .det else if b = 1#2 then .s else if b = 2#2 then .inv else .reserved

def OpSel.code : OpSel → BitVec 2
  | .add => 0#2
  | .sub => 1#2
  | .mul => 2#2
  | .flag => 3#2

def OpSel.ofCode (b : BitVec 2) : OpSel :=
  if b = 0#2 then .add else if b = 1#2 then .sub else if b = 2#2 then .mul else .flag

/-! ## Fields of format C (R91) -/

namespace Field

def opc (w : Word) : BitVec 4 := w.extractLsb' 28 4
def rsv (w : Word) : BitVec 11 := w.extractLsb' 17 11
def ms (w : Word) : BitVec 1 := w.extractLsb' 16 1
def op (w : Word) : BitVec 2 := w.extractLsb' 14 2
def ssrc (w : Word) : BitVec 2 := w.extractLsb' 12 2
def vd (w : Word) : BitVec 2 := w.extractLsb' 10 2
def vs (w : Word) : BitVec 2 := w.extractLsb' 8 2
def imm8 (w : Word) : BitVec 8 := w.extractLsb' 0 8

end Field

/-- A command whose scalar operand is not the reserved code, or Illegal (the `ssrc != 3` tests of R100). -/
def Decoded.scalarChecked (src : ScalarSrc) (i : Instr) : Decoded :=
  if src.legal then .command i else .illegal .reservedScalar

/-- A command whose unused fields are all 0, or Illegal (the `== 0` tests of R100). -/
def Decoded.unusedChecked (clear : Bool) (d : Decoded) : Decoded :=
  if clear then d else .illegal .unusedField

/-- The decoder (R100). The reserved bits are tested first, then the opcode selects the fields that must be 0. -/
def decode (w : Word) : Decoded :=
  let m := MatSel.ofCode (Field.ms w)
  let op := OpSel.ofCode (Field.op w)
  let src := ScalarSrc.ofCode (Field.ssrc w)
  let vd := VReg.ofCode (Field.vd w)
  let vs := VReg.ofCode (Field.vs w)
  if Field.rsv w ≠ 0#11 then .illegal .reservedBits
  else
    match (Field.opc w).toNat with
    | 0 => .unusedChecked (w.extractLsb' 0 17 = 0#17) (.command .nop)
    | 1 => .unusedChecked (w.extractLsb' 8 9 = 0#9) (.command (.setmod (Field.imm8 w)))
    | 2 => .unusedChecked (w.extractLsb' 0 16 = 0#16) (.command (.det m))
    | 3 => .unusedChecked (w.extractLsb' 0 16 = 0#16) (.command (.adj m))
    | 4 => .unusedChecked (w.extractLsb' 0 16 = 0#16) (.command (.minv m))
    | 5 => .unusedChecked (w.extractLsb' 14 3 = 0#3 && w.extractLsb' 0 12 = 0#12) (.scalarChecked src (.sinv src))
    | 6 => .unusedChecked (w.extractLsb' 12 4 = 0#4 && w.extractLsb' 0 8 = 0#8) (.command (.matvec vd m vs))
    | 7 => .unusedChecked (w.extractLsb' 10 7 = 0#7 && w.extractLsb' 0 8 = 0#8) (.command (.parity vs))
    | 8 => .unusedChecked (Field.ms w = 0#1 && Field.imm8 w = 0#8) (.scalarChecked src (.twist vd vs op src))
    | 9 => .unusedChecked (Field.ms w = 0#1 && Field.imm8 w = 0#8) (.scalarChecked src (.untwist vd vs op src))
    | _ => .illegal .reservedOpcode

/-! ## The encoder (R91, R102) -/

/-- Format C, its fields from the high bits down (R91); RSV is 0. -/
def formatC (opc : BitVec 4) (ms : BitVec 1) (op ssrc vd vs : BitVec 2) (imm : BitVec 8) : Word :=
  opc ++ 0#11 ++ ms ++ op ++ ssrc ++ vd ++ vs ++ imm

/-- The word of a command (R102): the fields its row uses, every other field 0. -/
def encode : Instr → Word
  | .nop => formatC 0#4 0#1 0#2 0#2 0#2 0#2 0#8
  | .setmod imm => formatC 1#4 0#1 0#2 0#2 0#2 0#2 imm
  | .det m => formatC 2#4 m.code 0#2 0#2 0#2 0#2 0#8
  | .adj m => formatC 3#4 m.code 0#2 0#2 0#2 0#2 0#8
  | .minv m => formatC 4#4 m.code 0#2 0#2 0#2 0#2 0#8
  | .sinv src => formatC 5#4 0#1 0#2 src.code 0#2 0#2 0#8
  | .matvec vd m vs => formatC 6#4 m.code 0#2 0#2 vd.code vs.code 0#8
  | .parity vs => formatC 7#4 0#1 0#2 0#2 0#2 vs.code 0#8
  | .twist vd vs op src => formatC 8#4 0#1 op.code src.code vd.code vs.code 0#8
  | .untwist vd vs op src => formatC 9#4 0#1 op.code src.code vd.code vs.code 0#8

/-! ## The opcode map as match and mask (R92) -/

/-- One row of R92. -/
structure OpRow where
  pattern : Word
  mask : Word
deriving DecidableEq, Repr

/-- The row's words: `(w & mask) = match`. -/
def OpRow.selects (row : OpRow) (w : Word) : Bool := w &&& row.mask = row.pattern

/-- The row of R92 that a command belongs to. -/
def Instr.row : Instr → OpRow
  | .nop => ⟨0x00000000#32, 0xFFFFFFFF#32⟩
  | .setmod _ => ⟨0x10000000#32, 0xFFFFFF00#32⟩
  | .det _ => ⟨0x20000000#32, 0xFFFEFFFF#32⟩
  | .adj _ => ⟨0x30000000#32, 0xFFFEFFFF#32⟩
  | .minv _ => ⟨0x40000000#32, 0xFFFEFFFF#32⟩
  | .sinv _ => ⟨0x50000000#32, 0xFFFFCFFF#32⟩
  | .matvec _ _ _ => ⟨0x60000000#32, 0xFFFEF0FF#32⟩
  | .parity _ => ⟨0x70000000#32, 0xFFFFFCFF#32⟩
  | .twist _ _ _ _ => ⟨0x80000000#32, 0xFFFF00FF#32⟩
  | .untwist _ _ _ _ => ⟨0x90000000#32, 0xFFFF00FF#32⟩

/-- The ten rows of R92, in the order of the opcodes. -/
def opcodeMap : List OpRow :=
  [⟨0x00000000#32, 0xFFFFFFFF#32⟩, ⟨0x10000000#32, 0xFFFFFF00#32⟩, ⟨0x20000000#32, 0xFFFEFFFF#32⟩,
   ⟨0x30000000#32, 0xFFFEFFFF#32⟩, ⟨0x40000000#32, 0xFFFEFFFF#32⟩, ⟨0x50000000#32, 0xFFFFCFFF#32⟩,
   ⟨0x60000000#32, 0xFFFEF0FF#32⟩, ⟨0x70000000#32, 0xFFFFFCFF#32⟩, ⟨0x80000000#32, 0xFFFF00FF#32⟩,
   ⟨0x90000000#32, 0xFFFF00FF#32⟩]

/-- The command a table word decodes to. A command is exactly one 32-bit word written whole (R64, R90), so the
word's bits are numbered as the table numbers them and bits from `nbits` up are 0. -/
def decodeTableWord (nbits w : Nat) : Option Instr :=
  (decode (BitVec.ofNat 32 (w % 2 ^ nbits))).command?

end Sys2Proof
end

