-- ==== Sys2Proof/Machine/State.lean ====
section
/-! DEFINITION. The state of MDAE (R22 to R36), the outside world's turns that drive it, its reset (R38), and the
two ways a step can stop. -/

namespace Sys2Proof.Machine

/-- STATUS.ERRCODE (R210). Codes 6 to 15 are "never produced" (U7), so they are no values here. -/
inductive ErrCode where
  /-- 0 NONE: ERR = 0. -/
  | none
  /-- 1 ILLEGAL: the word decodes to Illegal. -/
  | illegal
  /-- 2 BADMOD: SETMOD of a number below 2. -/
  | badMod
  /-- 3 NONINV_DET: UNTWIST by Multiply with a scalar that has no inverse. -/
  | noninvDet
  /-- 4 BADFLAG: OP = FLAG and TFLAG = 3. -/
  | badFlag
  /-- 5 BUSY_WRITE: a write other than to CTRL or STATUS while BUSY = 1. -/
  | busyWrite
deriving DecidableEq, Repr

/-- CTRL (R25): the two interrupt enables. SRST holds nothing (it reads 0). -/
structure Ctrl where
  ieDone : Bool
  ieErr : Bool
deriving DecidableEq, Repr

/-- STATUS (R26) less BUSY, which is 1 exactly when PEND is not none (R36). -/
structure Status where
  done : Bool
  err : Bool
  cop : Bool
  siv : Bool
  miv : Bool
  errcode : ErrCode
deriving DecidableEq, Repr

/-- The vector register file V0 to V3 (R22). -/
structure VFile where
  v0 : Vec3 Residue
  v1 : Vec3 Residue
  v2 : Vec3 Residue
  v3 : Vec3 Residue
deriving DecidableEq, Repr

/-- The size of a bus access: 1, 2 or 4 bytes (R61). -/
inductive BusSize where
  | byte
  | half
  | word
deriving DecidableEq, Repr

/-- A request at the bus port (R61). `wdata` means nothing in a read. -/
structure BusRequest where
  write : Bool
  offset : Offset
  size : BusSize
  wdata : Word
deriving DecidableEq, Repr

/-- A response at the bus port (R61). -/
structure BusResponse where
  rdata : Word
  err : Bool
deriving DecidableEq, Repr

/-- An access as a bus master makes it, at an address of the host's address space (R60). -/
structure HostAccess where
  addr : Nat
  write : Bool
  size : BusSize
  wdata : Word
deriving DecidableEq, Repr

/-- One turn of an agent (R20, R74): the host's access, the engine's chance to complete the pending command, or the
level of the reset pin. A list of turns is one total order of steps; every order is a list (U4, U5). -/
inductive Event where
  /-- A transaction at MDAE's bus port (R61). -/
  | bus (q : BusRequest)
  /-- A bus master's access at a host address, which the platform decodes against BASE (R60, R79). -/
  | platform (a : HostAccess)
  /-- The engine's turn (R121). -/
  | engine
  /-- `rst_n` is driven to a level (R61, R240). -/
  | rst (level : Bool)
deriving DecidableEq, Repr

/-- The state of MDAE and of what drives it. -/
structure State where
  /-- CTRL (R25). -/
  ctrl : Ctrl
  /-- STATUS less BUSY (R26). -/
  status : Status
  /-- PEND: the pending command word, or none (R36). -/
  pend : Option Word
  /-- MOD: the modulus M, legal values 2 to 255 (R28). -/
  modulus : Residue
  /-- K: the key matrix (R29). -/
  k : Mat3 Residue
  /-- R: the result matrix (R30). -/
  r : Mat3 Residue
  /-- V: the vector registers (R22). -/
  v : VFile
  /-- S: the host-written scalar (R23). -/
  s : Residue
  /-- DET (R31). -/
  det : Residue
  /-- INV (R32). -/
  inv : Residue
  /-- PCNT: the parity count (R34). -/
  pcnt : BitVec 2
  /-- TFLAG: the twist flag, 0 Add, 1 Subtract, 2 Multiply, 3 no flag (R33). -/
  tflag : BitVec 2
  /-- The level of `rst_n`; false while the machine is held in reset (R61, R240). -/
  rstN : Bool
  /-- The MODEL's own: the turns to come, first first (log 1). When none is left the engine has the turn (log 2). -/
  inputs : List Event
  /-- The answer to the latest bus transaction, the port's `rdata` and `err` (R61); none before the first (log 4). -/
  resp : Option BusResponse
  /-- The MODEL's own: how many free values were drawn (log 5). -/
  draws : Nat
deriving DecidableEq, Repr

/-- Why a step stops with a fault. -/
inductive Fault where
  /-- A bus access while `rst_n` is 0, raised by the bus port (`busTurn`). U6: "`stuck`: the host has no step until
  reset is released", so no behaviour is cut off (log 14).
  Safe. -/
  | accessInReset
deriving DecidableEq, Repr

/-- Why a step is refused. -/
inductive Refusal where
  /-- The command has no meaning in the model; raised by `exec`'s arm of that command. No arm raises it now. Safe. -/
  | notModelled (mnemonic : String)
deriving DecidableEq, Repr

/-- What one step of MDAE answers. -/
abbrev Outcome := Host.Outcome State Fault Refusal

/-- The zero block and the zero matrix, which reset and SETMOD store (R38, R124). -/
def zeroVec : Vec3 Residue := ⟨0#8, 0#8, 0#8⟩
def zeroMat : Mat3 Residue := ⟨zeroVec, zeroVec, zeroVec⟩
def zeroVFile : VFile := ⟨zeroVec, zeroVec, zeroVec, zeroVec⟩

/-- The machine right after reset (R38, R240): every register at the table's value, `rst_n` released (log 3), no turn
to come (log 1), no transaction answered (log 4), no free value drawn (log 5). -/
def State.reset : State where
  ctrl := ⟨false, false⟩
  status := ⟨false, false, false, false, false, .none⟩
  pend := none
  modulus := Config.modReset
  k := zeroMat
  r := zeroMat
  v := zeroVFile
  s := 0#8
  det := 0#8
  inv := 0#8
  pcnt := 0#2
  tflag := 0#2
  rstN := true
  inputs := []
  resp := none
  draws := 0

end Sys2Proof.Machine
end

