-- ==== Sys2Proof/Machine/Arith.lean ====
section
/-! DEFINITION. The arithmetic of the five units, on unbounded integers and reduced once at the end (R8, R12):
floor modulo, determinant, adjugate, inverse, matrix-vector product, parity count and the twist lane functions. -/

namespace Sys2Proof.Machine

/-! ## Residues (R8, R12, R13) -/

/-- A residue register's value as an integer. Every residue is unsigned (R7). -/
def val (x : Residue) : Int := (x.toNat : Int)

/-- The floor modulo of an exact integer, as it is stored in a residue register (R8, R12). -/
def reduce (m : Residue) (x : Int) : Residue := BitVec.ofInt 8 (x % val m)

/-- A bus word stored in a residue register: `w mod M`, w unsigned (R67). -/
def reduceWord (m : Residue) (w : Word) : Residue := reduce m (w.toNat : Int)

/-- `gcd(a, M) = 1`, with `gcd(0, M) = M` (R10). -/
def isUnit (m a : Residue) : Bool := Nat.gcd a.toNat m.toNat = 1

/-- The first t below `bound` that `a * t mod M = 1` holds of, counting up (R10, R152: any method gives this t). -/
def findInverse (m a : Nat) (bound : Nat) : Option Nat :=
  (List.range bound).find? (fun t => a * t % m = 1)

/-- `inv_M(a)`: defined exactly when `gcd(a, M) = 1` (R10). -/
def invM (m a : Residue) : Option Residue :=
  if isUnit m a then (findInverse m.toNat a.toNat m.toNat).map (BitVec.ofNat 8) else none

/-! ## Matrices (R140, R143, R170) -/

/-- The exact determinant, by cofactors of the first row (R140). -/
def det3 (x : Mat3 Int) : Int :=
  x.row0.l0 * (x.row1.l1 * x.row2.l2 - x.row1.l2 * x.row2.l1)
    - x.row0.l1 * (x.row1.l0 * x.row2.l2 - x.row1.l2 * x.row2.l0)
    + x.row0.l2 * (x.row1.l0 * x.row2.l1 - x.row1.l1 * x.row2.l0)

/-- The exact adjugate, the transpose of the cofactor matrix (R143). The names of the entries are R143's. -/
def adj3 (x : Mat3 Int) : Mat3 Int :=
  let a := x.row0.l0
  let b := x.row0.l1
  let c := x.row0.l2
  let d := x.row1.l0
  let e := x.row1.l1
  let f := x.row1.l2
  let g := x.row2.l0
  let h := x.row2.l1
  let i := x.row2.l2
  ⟨⟨e * i - f * h, c * h - b * i, b * f - c * e⟩,
   ⟨f * g - d * i, a * i - c * g, c * d - a * f⟩,
   ⟨d * h - e * g, b * g - a * h, a * e - b * d⟩⟩

/-- The exact product of a row and a block (R170). -/
def dot (row x : Vec3 Int) : Int := row.l0 * x.l0 + row.l1 * x.l1 + row.l2 * x.l2

/-- `det3(A) mod M` (R140). -/
def detResidue (m : Residue) (a : Mat3 Residue) : Residue := reduce m (det3 (a.map val))

/-- `adj3(A)[r][c] mod M`, entry by entry (R143). -/
def adjResidue (m : Residue) (a : Mat3 Residue) : Mat3 Residue := (adj3 (a.map val)).map (reduce m)

/-- `(adj3(A)[r][c] * t) mod M`, entry by entry (R147): reduced after the product. -/
def scaledAdj (m : Residue) (a : Mat3 Residue) (t : Residue) : Mat3 Residue :=
  (adj3 (a.map val)).map (fun x => reduce m (x * val t))

/-- The matrix-vector product mod M: lane r is row r of A times the column block x (R170, D34). -/
def mulVec (m : Residue) (a : Mat3 Residue) (x : Vec3 Residue) : Vec3 Residue :=
  Vec3.ofFn (fun r => reduce m (dot ((a.row r).map val) (x.map val)))

/-! ## Parity (R180, R181) -/

/-- 1 for an even residue and 0 for an odd one: the stored residue's parity (R181, R182). -/
def evenBit (x : Residue) : Nat := if x.toNat % 2 = 0 then 1 else 0

/-- How many lanes are even: 0 to 3 (R181). -/
def evenCount (x : Vec3 Residue) : Nat := evenBit x.l0 + evenBit x.l1 + evenBit x.l2

/-- The flag classifier (R180): at most 1 gives Add, 2 Subtract, 3 or more Multiply. -/
def classify (n : Nat) : BitVec 2 := if n ≤ 1 then 0#2 else if n = 2 then 1#2 else 2#2

/-! ## The twist lane functions (R184, R187) -/

/-- An effective twist operation (R183). -/
inductive TwistOp where
  | add
  | sub
  | mul
deriving DecidableEq, Repr

/-- `twist(x, s, o)` (R184). -/
def twistLane (m : Residue) (o : TwistOp) (sc x : Residue) : Residue :=
  match o with
  | .add => reduce m (val x + val sc)
  | .sub => reduce m (val x - val sc)
  | .mul => reduce m (val x * val sc)

/-- `untwist(x, s, o)` (R187), none where R187 leaves it undefined: Multiply with a scalar that has no inverse. -/
def untwistLane (m : Residue) (o : TwistOp) (sc x : Residue) : Option Residue :=
  match o with
  | .add => some (reduce m (val x - val sc))
  | .sub => some (reduce m (val x + val sc))
  | .mul => (invM m sc).map (fun t => reduce m (val x * val t))

/-- The twist of a whole block (R185). -/
def twistVec (m : Residue) (o : TwistOp) (sc : Residue) (x : Vec3 Residue) : Vec3 Residue :=
  x.map (twistLane m o sc)

/-- The untwist of a whole block (R188), none when the lane function is undefined for this operation and scalar. -/
def untwistVec (m : Residue) (o : TwistOp) (sc : Residue) (x : Vec3 Residue) : Option (Vec3 Residue) :=
  match untwistLane m o sc x.l0, untwistLane m o sc x.l1, untwistLane m o sc x.l2 with
  | some a, some b, some c => some ⟨a, b, c⟩
  | _, _, _ => none

end Sys2Proof.Machine
end

