-- ==== Sys2Proof/Machine/Ops.lean ====
section
/-! DEFINITION. The shared operations of the machine: vector registers, the pending command, raising an error (MDAE's
whole exception mechanism, R211, R216) and the two ways the host takes it back, the completion of a command (R121) and
reset (R240, R241). -/

namespace Sys2Proof.Machine

/-! ## Vector registers (R22, R95) -/

def VFile.get (f : VFile) (n : VReg) : Vec3 Residue :=
  match n with
  | .v0 => f.v0
  | .v1 => f.v1
  | .v2 => f.v2
  | .v3 => f.v3

def VFile.set (f : VFile) (n : VReg) (x : Vec3 Residue) : VFile :=
  match n with
  | .v0 => { f with v0 := x }
  | .v1 => { f with v1 := x }
  | .v2 => { f with v2 := x }
  | .v3 => { f with v3 := x }

/-- Write a whole vector register. -/
def State.setV (s : State) (n : VReg) (x : Vec3 Residue) : State := { s with v := s.v.set n x }

/-! ## The pending command (R36, R120) -/

/-- STATUS.BUSY: 1 exactly when PEND is not none (R36). -/
def State.busy (s : State) : Bool := s.pend.isSome

/-- Issue (R120): PEND takes the word, which sets BUSY, and DONE is cleared. The word is not checked. -/
def State.issue (s : State) (w : Word) : State :=
  { s with pend := some w, status := { s.status with done := false } }

/-! ## Errors (R211, R212, R215, R26) -/

/-- Taking an exception, MDAE's way: ERR is set and ERRCODE takes the code of the most recent failure (R211, R215).
No register is saved and nothing vectors (R216). -/
def State.raiseError (s : State) (c : ErrCode) : State :=
  { s with status := { s.status with err := true, errcode := c } }

/-- Its undoing by the host: a 1 in STATUS bit 2 clears ERR and ERRCODE (R26, R215). -/
def State.clearError (s : State) : State :=
  { s with status := { s.status with err := false, errcode := .none } }

/-- A 1 in STATUS bit 1 clears DONE (R26). -/
def State.clearDone (s : State) : State := { s with status := { s.status with done := false } }

/-! ## Completion (R121) -/

/-- What every completion does: PEND none, so BUSY = 0, and DONE = 1. -/
def State.finish (s : State) : State := { s with pend := none, status := { s.status with done := true } }

/-- A command that succeeds (`Ok(writes)` of R121); `s` is the state with its writes made. -/
def completeOk (s : State) : Outcome := .next s.finish

/-- A command that fails (`Err(code)` of R121): STATUS alone changes (R211). -/
def completeErr (c : ErrCode) (s : State) : Outcome := .next (s.raiseError c).finish

/-! ## Reset (R240, R241) -/

/-- Every register at its reset value (R38); what lies outside MDAE stays: the pin's level, the turns to come, the
latest response and the count of draws. -/
def State.toReset (s : State) : State :=
  { State.reset with rstN := s.rstN, inputs := s.inputs, resp := s.resp, draws := s.draws }

/-- All data at zero under a new modulus (the writes of SETMOD, R124). -/
def State.setModulus (s : State) (m : Residue) : State :=
  { s with
    modulus := m, k := zeroMat, r := zeroMat, v := zeroVFile, s := 0#8, det := 0#8, inv := 0#8
    pcnt := 0#2, tflag := 0#2, status := { s.status with cop := false, siv := false, miv := false } }

/-! ## The bus port (R61, R71) -/

/-- The free value of this transaction (log 5). -/
def State.draw (s : State) : Word := Config.freeWord s.draws

/-- Answer a transaction; the counter of free values advances. -/
def State.respond (s : State) (a : BusResponse) : State := { s with resp := some a, draws := s.draws + 1 }

end Sys2Proof.Machine
end

