-- ==== Sys2Proof/Machine/Operands.lean ====
section
/-! DEFINITION. The operand forms of the commands: the matrix MS names (R94), the scalar SSRC names (R96) and the
operation OP and TFLAG name together (R97, R183). -/

namespace Sys2Proof.Machine

/-- The matrix operand: K or R (R94). -/
def State.matrix (s : State) (m : MatSel) : Mat3 Residue :=
  match m with
  | .k => s.k
  | .r => s.r

/-- The scalar operand: DET, S or INV (R96); none for the reserved code, which is illegal (R99). -/
def State.scalar (s : State) (src : ScalarSrc) : Option Residue :=
  match src with
  | .det => some s.det
  | .s => some s.s
  | .inv => some s.inv
  | .reserved => none

/-- The operation a TFLAG code names (R33); none for code 3, "no flag". -/
def flagOp (tflag : BitVec 2) : Option TwistOp :=
  if tflag = 0#2 then some .add else if tflag = 1#2 then some .sub else if tflag = 2#2 then some .mul else none

/-- `eff_op` (R183): none is Err(BADFLAG). TFLAG matters only when OP is FLAG. -/
def effOp (op : OpSel) (tflag : BitVec 2) : Option TwistOp :=
  match op with
  | .add => some .add
  | .sub => some .sub
  | .mul => some .mul
  | .flag => flagOp tflag

end Sys2Proof.Machine
end

