-- ==== Sys2Proof/Machine/Flags.lean ====
section
/-! DEFINITION. The condition flags (R35), the STATUS and CTRL words a host reads (R25, R26) and the interrupt line
(R217). -/

namespace Sys2Proof.Machine

/-- COP: `gcd(d, M) = 1` of the determinant just written (R35, R141). -/
def copOf (m d : Residue) : Bool := isUnit m d

/-- The writes of DET (R141). -/
def State.setDet (s : State) (d : Residue) (cop : Bool) : State :=
  { s with det := d, status := { s.status with cop := cop } }

/-- MIV (R35, R147). -/
def State.setMiv (s : State) (b : Bool) : State := { s with status := { s.status with miv := b } }

/-- SIV (R35, R151). -/
def State.setSiv (s : State) (b : Bool) : State := { s with status := { s.status with siv := b } }

/-- The writes of PARITY (R181). -/
def State.setParity (s : State) (n : Nat) : State := { s with pcnt := BitVec.ofNat 2 n, tflag := classify n }

/-- The four bits of ERRCODE (R210). -/
def ErrCode.code : ErrCode → BitVec 4
  | .none => 0#4
  | .illegal => 1#4
  | .badMod => 2#4
  | .noninvDet => 3#4
  | .badFlag => 4#4
  | .busyWrite => 5#4

/-- STATUS bits [11:4]: ERRCODE, reserved 0, MIV, SIV, COP (R26). -/
def State.statusResults (s : State) : BitVec 8 :=
  s.status.errcode.code ++ 0#1 ++ BitVec.ofBool s.status.miv ++ BitVec.ofBool s.status.siv ++ BitVec.ofBool s.status.cop

/-- STATUS bits [2:0]: ERR, DONE, BUSY (R26). -/
def State.statusProgress (s : State) : BitVec 3 :=
  BitVec.ofBool s.status.err ++ BitVec.ofBool s.status.done ++ BitVec.ofBool s.busy

/-- A STATUS word from its bits [11:4] and [2:0]; the rest is reserved and reads 0 (R26). -/
def packStatus (results : BitVec 8) (progress : BitVec 3) : Word := 0#20 ++ results ++ 0#1 ++ progress

/-- STATUS as a word (R26). -/
def State.statusWord (s : State) : Word := packStatus s.statusResults s.statusProgress

/-- CTRL as a word: bits [30:2] and SRST read 0 (R25). -/
def State.ctrlWord (s : State) : Word := 0#30 ++ BitVec.ofBool s.ctrl.ieErr ++ BitVec.ofBool s.ctrl.ieDone

/-- The level of the interrupt output (R217). -/
def State.irq (s : State) : Bool := (s.status.done && s.ctrl.ieDone) || (s.status.err && s.ctrl.ieErr)

end Sys2Proof.Machine
end

