-- ==== Sys2Proof/Machine/Control.lean ====
section
/-! DEFINITION. The control commands (40_control.md): NOP and SETMOD. -/

namespace Sys2Proof.Machine

/-- NOP (R123): `Ok({})`. -/
def execNop (s : State) : Outcome := completeOk s

/-- SETMOD (R124): BADMOD below 2; else the new modulus, with all data and the condition flags cleared. -/
def execSetmod (imm : BitVec 8) (s : State) : Outcome :=
  if imm.toNat < 2 then completeErr .badMod s else completeOk (s.setModulus imm)

end Sys2Proof.Machine
end

