-- ==== Sys2Proof/Machine/LinearAlgebra.lean ====
section
/-! DEFINITION. The determinant, adjugate and inverse commands (41_linear_algebra.md): DET, ADJ, MINV and SINV. Every
operand is read from the state before the step (R121). -/

namespace Sys2Proof.Machine

/-- DET (R141). -/
def execDet (m : MatSel) (s : State) : Outcome :=
  let d := detResidue s.modulus (s.matrix m)
  completeOk (s.setDet d (copOf s.modulus d))

/-- ADJ (R144). -/
def execAdj (m : MatSel) (s : State) : Outcome :=
  completeOk { s with r := adjResidue s.modulus (s.matrix m) }

/-- MINV (R147): with no inverse DET is written, COP and MIV are 0 and R stays. -/
def execMinv (m : MatSel) (s : State) : Outcome :=
  let a := s.matrix m
  let d := detResidue s.modulus a
  match invM s.modulus d with
  | none => completeOk ((s.setDet d false).setMiv false)
  | some t => completeOk { (s.setDet d true).setMiv true with r := scaledAdj s.modulus a t }

/-- SINV (R151): with no inverse SIV is 0 and INV stays. The reserved SSRC code is ILLEGAL (R99). -/
def execSinv (src : ScalarSrc) (s : State) : Outcome :=
  match s.scalar src with
  | none => completeErr .illegal s
  | some a =>
    match invM s.modulus a with
    | none => completeOk (s.setSiv false)
    | some t => completeOk { s.setSiv true with inv := t }

end Sys2Proof.Machine
end

