-- ==== Sys2Proof/Machine/MatVec.lean ====
section
/-! DEFINITION. The matrix-vector multiplier (42_matvec.md): MATVEC. -/

namespace Sys2Proof.Machine

/-- MATVEC (R170): the whole source vector is read before the destination is written. -/
def execMatvec (vd : VReg) (m : MatSel) (vs : VReg) (s : State) : Outcome :=
  completeOk (s.setV vd (mulVec s.modulus (s.matrix m) (s.v.get vs)))

end Sys2Proof.Machine
end

