-- ==== Sys2Proof/Machine/Twist.lean ====
section
/-! DEFINITION. The parity counter and the twist operator (43_twist.md): PARITY, TWIST and UNTWIST. The errors are
tested in the order of R214: ILLEGAL, BADFLAG, NONINV_DET. -/

namespace Sys2Proof.Machine

/-- PARITY (R181). -/
def execParity (vs : VReg) (s : State) : Outcome := completeOk (s.setParity (evenCount (s.v.get vs)))

/-- TWIST (R185). -/
def execTwist (vd vs : VReg) (op : OpSel) (src : ScalarSrc) (s : State) : Outcome :=
  match s.scalar src with
  | none => completeErr .illegal s
  | some sc =>
    match effOp op s.tflag with
    | none => completeErr .badFlag s
    | some o => completeOk (s.setV vd (twistVec s.modulus o sc (s.v.get vs)))

/-- UNTWIST (R188). The inverse is computed inside: INV and SIV stay. -/
def execUntwist (vd vs : VReg) (op : OpSel) (src : ScalarSrc) (s : State) : Outcome :=
  match s.scalar src with
  | none => completeErr .illegal s
  | some sc =>
    match effOp op s.tflag with
    | none => completeErr .badFlag s
    | some o =>
      match untwistVec s.modulus o sc (s.v.get vs) with
      | none => completeErr .noninvDet s
      | some x => completeOk (s.setV vd x)

end Sys2Proof.Machine
end

