-- ==== Sys2Proof/Machine/Dispatch.lean ====
section
/-! DEFINITION. One arm per command (R92). -/

namespace Sys2Proof.Machine

/-- The completion of a decoded command (R121). -/
def exec (i : Instr) (s : State) : Host.Outcome State Fault Refusal :=
  match i with
  | .nop => Sys2Proof.Machine.execNop s
  | .setmod imm => Sys2Proof.Machine.execSetmod imm s
  | .det m => Sys2Proof.Machine.execDet m s
  | .adj m => Sys2Proof.Machine.execAdj m s
  | .minv m => Sys2Proof.Machine.execMinv m s
  | .sinv src => Sys2Proof.Machine.execSinv src s
  | .matvec vd m vs => Sys2Proof.Machine.execMatvec vd m vs s
  | .parity vs => Sys2Proof.Machine.execParity vs s
  | .twist vd vs op src => Sys2Proof.Machine.execTwist vd vs op src s
  | .untwist vd vs op src => Sys2Proof.Machine.execUntwist vd vs op src s

end Sys2Proof.Machine
end

