-- ==== Sys2Proof/Machine/Window.lean ====
section
/-! DEFINITION. The register window (R60 to R72): the register map of R62, the reads of R65 and R71, the writes of R66
to R70, and one transaction at the bus port (R61, R63). -/

namespace Sys2Proof.Machine

/-- What an offset of the window names (R62). -/
inductive Reg where
  | id
  | version
  | ctrl
  | status
  | cmd
  | modulus
  | det
  | inv
  | s
  | pcnt
  | tflag
  | k (r c : Fin 3)
  | r (r c : Fin 3)
  | v (n : VReg) (l : Fin 3)
  | reserved
deriving DecidableEq, Repr

/-! ## The register map (R62) -/

def controlMap : List (Nat × Reg) :=
  [(0x00, .id), (0x04, .version), (0x08, .ctrl), (0x0C, .status), (0x10, .cmd), (0x14, .modulus),
   (0x18, .det), (0x1C, .inv), (0x20, .s), (0x24, .pcnt), (0x28, .tflag)]

def keyMap : List (Nat × Reg) :=
  [(0x40, .k 0 0), (0x44, .k 0 1), (0x48, .k 0 2), (0x4C, .k 1 0), (0x50, .k 1 1), (0x54, .k 1 2),
   (0x58, .k 2 0), (0x5C, .k 2 1), (0x60, .k 2 2)]

def resultMap : List (Nat × Reg) :=
  [(0x80, .r 0 0), (0x84, .r 0 1), (0x88, .r 0 2), (0x8C, .r 1 0), (0x90, .r 1 1), (0x94, .r 1 2),
   (0x98, .r 2 0), (0x9C, .r 2 1), (0xA0, .r 2 2)]

def vectorMap : List (Nat × Reg) :=
  [(0xC0, .v .v0 0), (0xC4, .v .v0 1), (0xC8, .v .v0 2), (0xD0, .v .v1 0), (0xD4, .v .v1 1), (0xD8, .v .v1 2),
   (0xE0, .v .v2 0), (0xE4, .v .v2 1), (0xE8, .v .v2 2), (0xF0, .v .v3 0), (0xF4, .v .v3 1), (0xF8, .v .v3 2)]

/-- The register an offset names; every offset outside the map's rows is reserved (R62). -/
def Reg.ofOffset (off : Offset) : Reg :=
  ((controlMap ++ keyMap ++ resultMap ++ vectorMap).lookup off.toNat).getD .reserved

/-- The number of a vector register (R95). -/
def vregIndex (n : VReg) : Nat := n.code.toNat

/-- `off(reg)` by the formulas of R62, for the host notation of R104. A reserved offset stands for all of its kind. -/
def Reg.offset : Reg → Offset
  | .id => 0x00#8
  | .version => 0x04#8
  | .ctrl => 0x08#8
  | .status => 0x0C#8
  | .cmd => 0x10#8
  | .modulus => 0x14#8
  | .det => 0x18#8
  | .inv => 0x1C#8
  | .s => 0x20#8
  | .pcnt => 0x24#8
  | .tflag => 0x28#8
  | .k i j => BitVec.ofNat 8 (0x40 + 4 * (3 * i.val + j.val))
  | .r i j => BitVec.ofNat 8 (0x80 + 4 * (3 * i.val + j.val))
  | .v n l => BitVec.ofNat 8 (0xC0 + 16 * vregIndex n + 4 * l.val)
  | .reserved => 0x2C#8

/-! ## Reads (R65) -/

/-- The exact 32 bits a register reads as (R65). -/
def State.read (s : State) (reg : Reg) : Word :=
  match reg with
  | .id => Config.idValue
  | .version => Config.versionValue
  | .ctrl => s.ctrlWord
  | .status => s.statusWord
  | .cmd => 0#32
  | .modulus => s.modulus.setWidth 32
  | .det => s.det.setWidth 32
  | .inv => s.inv.setWidth 32
  | .s => s.s.setWidth 32
  | .pcnt => s.pcnt.setWidth 32
  | .tflag => s.tflag.setWidth 32
  | .k i j => (s.k.get i j).setWidth 32
  | .r i j => (s.r.get i j).setWidth 32
  | .v n l => ((s.v.get n).get l).setWidth 32
  | .reserved => 0#32

/-! ## The write sets (R15, R123 to R188) and busy reads (R71) -/

/-- A register that SETMOD's write set names: MOD, every residue register, PCNT, TFLAG (R124). -/
def Reg.isData : Reg → Bool
  | .id => false
  | .version => false
  | .ctrl => false
  | .status => false
  | .cmd => false
  | .modulus => true
  | .det => true
  | .inv => true
  | .s => true
  | .pcnt => true
  | .tflag => true
  | .k _ _ => true
  | .r _ _ => true
  | .v _ _ => true
  | .reserved => false

/-- The register is one of the result matrix R. -/
def Reg.isResult : Reg → Bool
  | .r _ _ => true
  | _ => false

/-- The register is a lane of this vector register. -/
def Reg.isLaneOf (vd : VReg) : Reg → Bool
  | .v n _ => n = vd
  | _ => false

/-- The write set of a command: the registers it may write (R15), STATUS apart. R counts for MINV whether or not the
inverse exists (log 9). -/
def writeSet (i : Instr) (reg : Reg) : Bool :=
  match i with
  | .nop => false
  | .setmod _ => reg.isData
  | .det _ => reg = .det
  | .adj _ => reg.isResult
  | .minv _ => reg = .det || reg.isResult
  | .sinv _ => reg = .inv
  | .matvec vd _ _ => reg.isLaneOf vd
  | .parity _ => reg = .pcnt || reg = .tflag
  | .twist vd _ _ _ => reg.isLaneOf vd
  | .untwist vd _ _ _ => reg.isLaneOf vd

/-- The write set of the pending word; an illegal word writes no register but STATUS (R99). -/
def wordWriteSet (w : Word) (reg : Reg) : Bool :=
  match decode w with
  | .command i => writeSet i reg
  | .illegal _ => false

/-- What a host read answers (R65). While BUSY = 1 (R71) a register of the pending command's write set answers a free
value, STATUS answers free bits [11:4] and exact bits [2:0] (log 8), and any other register its current value. -/
def State.busRead (s : State) (reg : Reg) : Word :=
  match s.pend with
  | none => s.read reg
  | some w =>
    if reg = .status then packStatus (s.draw.extractLsb' 4 8) s.statusProgress
    else if wordWriteSet w reg then s.draw
    else s.read reg

/-! ## Writes (R66, R67, R68, R70) -/

/-- A write to CTRL (R25): the enables, or with SRST = 1 the soft reset, which discards them (R241). -/
def State.writeCtrl (s : State) (w : Word) : State :=
  if w.getLsbD 31 then s.toReset else { s with ctrl := ⟨w.getLsbD 0, w.getLsbD 1⟩ }

/-- A write to STATUS (R26): write-one-to-clear of DONE, and of ERR with ERRCODE. -/
def State.writeStatus (s : State) (w : Word) : State :=
  let s1 := if w.getLsbD 1 then s.clearDone else s
  if w.getLsbD 2 then s1.clearError else s1

/-- A write while BUSY = 0 (R66). Read-only and reserved offsets ignore it. -/
def State.write (s : State) (reg : Reg) (w : Word) : State :=
  match reg with
  | .id => s
  | .version => s
  | .ctrl => s.writeCtrl w
  | .status => s.writeStatus w
  | .cmd => s.issue w
  | .modulus => s
  | .det => s
  | .inv => s
  | .s => { s with s := reduceWord s.modulus w }
  | .pcnt => s
  | .tflag => { s with tflag := w.extractLsb' 0 2 }
  | .k i j => { s with k := s.k.set i j (reduceWord s.modulus w) }
  | .r i j => { s with r := s.r.set i j (reduceWord s.modulus w) }
  | .v n l => s.setV n ((s.v.get n).set l (reduceWord s.modulus w))
  | .reserved => s

/-- A host write (R66, R70): while BUSY = 1 only CTRL and STATUS take it, and any other is dropped with BUSY_WRITE
(R212). -/
def State.busWrite (s : State) (reg : Reg) (w : Word) : State :=
  if s.busy then
    if reg = .ctrl ∨ reg = .status then s.write reg w else s.raiseError .busyWrite
  else s.write reg w

/-! ## One transaction (R61, R63) -/

/-- The access MDAE performs: an aligned 32-bit one (R63). -/
def BusRequest.admitted (q : BusRequest) : Bool := q.size = .word && q.offset.extractLsb' 0 2 = 0#2

/-- One bus transaction (R61, R63). A refused access answers err = 1 and changes no register; a refused read answers
rdata = 0. rdata of a response to a write is a free value (log 6). No access is taken while `rst_n` is 0 (R240, U6,
log 14), and a refused one is no BUSY_WRITE (log 15). That a write
dropped while BUSY = 1 answers err = 0 is the model's choice (log 16). -/
def busTurn (q : BusRequest) (s : State) : Outcome :=
  if s.rstN = false then .fault .accessInReset
  else if q.admitted = false then .next (s.respond ⟨if q.write then s.draw else 0#32, true⟩)
  else if q.write then .next ((s.busWrite (Reg.ofOffset q.offset) q.wdata).respond ⟨s.draw, false⟩)
  else .next (s.respond ⟨s.busRead (Reg.ofOffset q.offset), false⟩)

/-! ## The host's notation (R104) -/

/-- `WR reg, v`. -/
def Event.wr (reg : Reg) (w : Word) : Event := .bus ⟨true, reg.offset, .word, w⟩

/-- `RD reg`. -/
def Event.rd (reg : Reg) : Event := .bus ⟨false, reg.offset, .word, 0#32⟩

/-- `ISSUE asm`: `WR CMD, encode(asm)`. -/
def Event.issue (i : Instr) : Event := .wr .cmd (encode i)

end Sys2Proof.Machine
end

