-- ==== Sys2Proof/Machine/Engine.lean ====
section
/-! DEFINITION. The engine's turn (R121), the reset pin (R240) and the choice of whose turn it is (R20, R74). -/

namespace Sys2Proof.Machine

/-- The engine's turn (R121): the pending word is decoded and completed in one atomic step; an illegal word fails with
ILLEGAL (R99). With nothing pending the engine has no step to take and the machine stays as it is. While `rst_n` is 0
every register holds its reset value (R240), so nothing completes. -/
def complete (s : State) : Outcome :=
  if s.rstN = false then .next s.toReset
  else
    match s.pend with
    | none => .next s
    | some w =>
      match decode w with
      | .command i => exec i s
      | .illegal _ => completeErr .illegal s

/-- `rst_n` driven to a level (R240): at 0, and at the moment it returns to 1, every register takes its reset value. -/
def resetTurn (level : Bool) (s : State) : Outcome :=
  if s.rstN && level then .next s else .next { s.toReset with rstN := level }

/-- The request the platform passes on for an address inside the window (R60, R79). -/
def HostAccess.request (a : HostAccess) (off : Offset) : BusRequest := ⟨a.write, off, a.size, a.wdata⟩

/-- A bus master's access: inside the window it reaches the port, outside it never reaches MDAE (R60). -/
def platformTurn (a : HostAccess) (s : State) : Outcome :=
  match Config.windowOffset a.addr with
  | none => .next s
  | some off => busTurn (a.request off) s

/-- One turn. -/
def takeTurn (e : Event) (s : State) : Outcome :=
  match e with
  | .bus q => busTurn q s
  | .platform a => platformTurn a s
  | .engine => complete s
  | .rst level => resetTurn level s

/-- The next turn of the list, taken off it; with none left the engine's, so that a pending command is completed in
the end (weak fairness, R121, log 2). -/
def nextTurn (s : State) : Outcome :=
  match s.inputs with
  | [] => complete s
  | e :: rest => takeTurn e { s with inputs := rest }

/-- The state in which the word of a command is pending, MDAE out of reset, and the engine's turn put before all the
others (log 11). -/
def State.pending (s : State) (w : Word) : State := { s with pend := some w, rstN := true, inputs := .engine :: s.inputs }

end Sys2Proof.Machine
end

