-- ==== Sys2Proof/Machine/Step.lean ====
section
/-! DEFINITION. One step of the machine (R74), and the placing of a command word where the engine takes its next
command from: PEND (R36). -/

namespace Sys2Proof.Machine

/-- One step: one access, one completion, or one level of the reset pin (R74). -/
def step : State → Host.Outcome State Fault Refusal := nextTurn

/-- The command word `w` pending, so that the very next step is its completion. A command is one 32-bit word, so the
bits from `nbits` up are 0. MDAE fetches nothing (R21); a program comes to run by CMD writes (log 11). -/
def State.withFetchWord (s : State) (nbits w : Nat) : State := s.pending (BitVec.ofNat 32 (w % 2 ^ nbits))

end Sys2Proof.Machine
end

