-- ==== Sys2Proof/Machine/Assembly.lean ====
section
/-! DEFINITION. The assembler forms of R102 and the pseudo-commands of R103: a line of text read as a command, and a
command written as a line. Mnemonics and operand keywords are read without regard to case; operands are separated by
commas; `#m` is decimal or `0x` hexadecimal in 0 to 255. Blanks around words are skipped, and that the
case of `0x` and of hexadecimal digits does not matter either is the model's choice (log 10). -/

namespace Sys2Proof.Machine

/-- A line of assembler text. -/
abbrev Text := List Char

def isBlank (c : Char) : Bool := c = ' ' || c = '\t'

/-- The text without the blanks at its ends. -/
def trim (t : Text) : Text := ((t.dropWhile isBlank).reverse.dropWhile isBlank).reverse

/-- The pieces of a text between the commas. -/
def splitCommas : Text → List Text
  | [] => [[]]
  | c :: rest =>
    match splitCommas rest with
    | [] => [[c]]
    | p :: ps => if c = ',' then [] :: p :: ps else (c :: p) :: ps

/-- The value of a digit in a base up to 16, read in upper case. -/
def digitValue (base : Nat) (c : Char) : Option Nat :=
  let n := c.toNat
  let v := if 48 ≤ n ∧ n ≤ 57 then n - 48 else if 65 ≤ n ∧ n ≤ 70 then n - 55 else base
  if v < base then some v else none

/-- The number the digits after `acc` spell. -/
def readDigits (base : Nat) (acc : Nat) : Text → Option Nat
  | [] => some acc
  | c :: rest =>
    match digitValue base c with
    | none => none
    | some v => readDigits base (acc * base + v) rest

/-- A number: `0x` and hexadecimal digits, or decimal digits; at least one digit (R102). The line is in upper case here, so
`0X` and `a` to `f` are read as well (log 10). -/
def readNumber : Text → Option Nat
  | [] => none
  | '0' :: 'X' :: c :: rest => readDigits 16 0 (c :: rest)
  | c :: rest => readDigits 10 0 (c :: rest)

/-- `#m`, in 0 to 255 (R98, R102). -/
def readImm : Text → Option (BitVec 8)
  | '#' :: t =>
    match readNumber t with
    | some n => if n < 256 then some (BitVec.ofNat 8 n) else none
    | none => none
  | _ => none

/-- A matrix operand (R94). -/
def readMatrix (t : Text) : Option MatSel :=
  if t = "K".toList then some .k else if t = "R".toList then some .r else none

/-- A vector operand (R95). -/
def readVector (t : Text) : Option VReg :=
  if t = "V0".toList then some .v0 else if t = "V1".toList then some .v1
  else if t = "V2".toList then some .v2 else if t = "V3".toList then some .v3 else none

/-- A scalar operand (R96). -/
def readScalar (t : Text) : Option ScalarSrc :=
  if t = "DET".toList then some .det else if t = "S".toList then some .s
  else if t = "INV".toList then some .inv else none

/-- A twist operation (R97). -/
def readOp (t : Text) : Option OpSel :=
  if t = "ADD".toList then some .add else if t = "SUB".toList then some .sub
  else if t = "MUL".toList then some .mul else if t = "FLAG".toList then some .flag else none

/-- The command of a mnemonic and its operands, in upper case (R102, R103). -/
def assembleForm (mnemonic : Text) (operands : List Text) : Option Instr :=
  match operands with
  | [] => if mnemonic = "NOP".toList then some .nop else none
  | [x] =>
    if mnemonic = "SETMOD".toList then (readImm x).map .setmod
    else if mnemonic = "DET".toList then (readMatrix x).map .det
    else if mnemonic = "ADJ".toList then (readMatrix x).map .adj
    else if mnemonic = "MINV".toList then (readMatrix x).map .minv
    else if mnemonic = "SINV".toList then (readScalar x).map .sinv
    else if mnemonic = "PARITY".toList then (readVector x).map .parity
    else if mnemonic = "CLASSIFY".toList then (readVector x).map .classify
    else if mnemonic = "TWF".toList then (readVector x).map .twf
    else if mnemonic = "UTWF".toList then (readVector x).map .utwf
    else none
  | [x, y] =>
    match readVector x, readVector y with
    | some vd, some vs =>
      if mnemonic = "ENC".toList then some (.enc vd vs)
      else if mnemonic = "DEC".toList then some (.dec vd vs)
      else none
    | _, _ => none
  | [x, y, z] =>
    match readVector x, readMatrix y, readVector z with
    | some vd, some m, some vs => if mnemonic = "MATVEC".toList then some (.matvec vd m vs) else none
    | _, _, _ => none
  | [x, y, o, z] =>
    match readVector x, readVector y, readOp o, readScalar z with
    | some vd, some vs, some op, some src =>
      if mnemonic = "TWIST".toList then some (.twist vd vs op src)
      else if mnemonic = "UNTWIST".toList then some (.untwist vd vs op src)
      else none
    | _, _, _, _ => none
  | _ => none

/-- A line read as a command (R102): the mnemonic up to the first blank, then the operands between commas. -/
def assemble (line : Text) : Option Instr :=
  let t := trim (line.map Char.toUpper)
  let rest := trim (t.dropWhile (fun c => !isBlank c))
  assembleForm (t.takeWhile (fun c => !isBlank c)) (if rest = [] then [] else (splitCommas rest).map trim)

/-! ## Commands as text -/

def matrixText : MatSel → Text
  | .k => "K".toList
  | .r => "R".toList

def vectorText : VReg → Text
  | .v0 => "V0".toList
  | .v1 => "V1".toList
  | .v2 => "V2".toList
  | .v3 => "V3".toList

/-- The reserved code has no assembler form (R96). -/
def scalarText : ScalarSrc → Text
  | .det => "DET".toList
  | .s => "S".toList
  | .inv => "INV".toList
  | .reserved => []

def opText : OpSel → Text
  | .add => "ADD".toList
  | .sub => "SUB".toList
  | .mul => "MUL".toList
  | .flag => "FLAG".toList

/-- One decimal digit. -/
def digitText (n : Nat) : Char := Char.ofNat (48 + n % 10)

/-- `#m` in decimal, without leading zeros (log 10). -/
def immText (m : BitVec 8) : Text :=
  let n := m.toNat
  '#' :: (if n < 10 then [digitText n] else if n < 100 then [digitText (n / 10), digitText n]
    else [digitText (n / 100), digitText (n / 10), digitText n])

/-- A mnemonic and its operands as a line. -/
def formText (mnemonic : Text) : List Text → Text
  | [] => mnemonic
  | x :: xs => mnemonic ++ ' ' :: x ++ (xs.map (fun y => ',' :: ' ' :: y)).flatten

/-- A command as a line of R102. -/
def instrText : Instr → Text
  | .nop => formText "NOP".toList []
  | .setmod imm => formText "SETMOD".toList [immText imm]
  | .det m => formText "DET".toList [matrixText m]
  | .adj m => formText "ADJ".toList [matrixText m]
  | .minv m => formText "MINV".toList [matrixText m]
  | .sinv src => formText "SINV".toList [scalarText src]
  | .matvec vd m vs => formText "MATVEC".toList [vectorText vd, matrixText m, vectorText vs]
  | .parity vs => formText "PARITY".toList [vectorText vs]
  | .twist vd vs op src => formText "TWIST".toList [vectorText vd, vectorText vs, opText op, scalarText src]
  | .untwist vd vs op src => formText "UNTWIST".toList [vectorText vd, vectorText vs, opText op, scalarText src]

end Sys2Proof.Machine
end

