-- ==== Sys2Proof/Safety.lean ====
section
/-! DEFINITION. The terms claims are stated in: the invariant of R37, which command fails with which code (R210, R214),
what a host that keeps the busy hazard R250 does, and the spec's arithmetic written over plain integer entries. -/

namespace Sys2Proof.Machine

/-! ## The invariant (R26, R28, R37, R240) -/

/-- MOD holds a legal modulus (R28). The upper bound 255 is the register's width. -/
def State.modLegal (s : State) : Prop := 2 ≤ s.modulus.toNat

/-- Every residue register holds a value below MOD (R37). -/
structure State.Reduced (s : State) : Prop where
  kBelow : ∀ i j, (s.k.get i j).toNat < s.modulus.toNat
  rBelow : ∀ i j, (s.r.get i j).toNat < s.modulus.toNat
  vBelow : ∀ n l, ((s.v.get n).get l).toNat < s.modulus.toNat
  sBelow : s.s.toNat < s.modulus.toNat
  detBelow : s.det.toNat < s.modulus.toNat
  invBelow : s.inv.toNat < s.modulus.toNat

/-- What every step keeps: a legal modulus, reduced residues (R37), ERRCODE = 0 exactly when ERR = 0 (R26, R210), and
reset values while `rst_n` is 0 (R240). -/
structure State.Inv (s : State) : Prop where
  modLegal : s.modLegal
  reduced : s.Reduced
  noErrorNoCode : s.status.err = false ↔ s.status.errcode = .none
  heldInReset : s.rstN = false → s.toReset = s

/-! ## Completions (R121, R211) -/

/-- The state a failing command leaves: STATUS alone differs (R211). -/
def State.failed (s : State) (c : ErrCode) : State :=
  { s with pend := none, status := { s.status with err := true, errcode := c, done := true } }

/-- OP names the operation, directly or through TFLAG (R183). -/
def namesOp (op : OpSel) (tflag : BitVec 2) (o : TwistOp) : Prop :=
  match o with
  | .add => op = .add ∨ (op = .flag ∧ tflag = 0#2)
  | .sub => op = .sub ∨ (op = .flag ∧ tflag = 1#2)
  | .mul => op = .mul ∨ (op = .flag ∧ tflag = 2#2)

/-- OP asks for the flag and TFLAG holds none (R183): BADFLAG. -/
abbrev noFlag (op : OpSel) (tflag : BitVec 2) : Prop := op = .flag ∧ tflag = 3#2

/-- The effective operation is Multiply (R183). -/
abbrev multiplies (op : OpSel) (tflag : BitVec 2) : Prop := op = .mul ∨ (op = .flag ∧ tflag = 2#2)

/-- The scalar register SSRC names has an inverse mod M (R10, R188); the reserved code names none. -/
def State.scalarUnit (s : State) (src : ScalarSrc) : Prop :=
  match src with
  | .det => Nat.gcd s.det.toNat s.modulus.toNat = 1
  | .s => Nat.gcd s.s.toNat s.modulus.toNat = 1
  | .inv => Nat.gcd s.inv.toNat s.modulus.toNat = 1
  | .reserved => False

/-- The command fails with this code (the causes of R210, in the order of R214). -/
def commandFails (i : Instr) (s : State) (c : ErrCode) : Prop :=
  match i with
  | .nop => False
  | .setmod imm => c = .badMod ∧ imm.toNat < 2
  | .det _ => False
  | .adj _ => False
  | .minv _ => False
  | .sinv src => c = .illegal ∧ src = .reserved
  | .matvec _ _ _ => False
  | .parity _ => False
  | .twist _ _ op src =>
    (c = .illegal ∧ src = .reserved) ∨ (c = .badFlag ∧ src ≠ .reserved ∧ noFlag op s.tflag)
  | .untwist _ _ op src =>
    (c = .illegal ∧ src = .reserved) ∨ (c = .badFlag ∧ src ≠ .reserved ∧ noFlag op s.tflag)
      ∨ (c = .noninvDet ∧ src ≠ .reserved ∧ multiplies op s.tflag ∧ ¬ s.scalarUnit src)

/-! ## The write sets of R71, offset by offset

Written out from the command rules and the map of R62, with no word of `writeSet`. -/

/-- The offsets of the lanes of a vector register (R62). -/
def vectorOffsets : VReg → List Nat
  | .v0 => [0xC0, 0xC4, 0xC8]
  | .v1 => [0xD0, 0xD4, 0xD8]
  | .v2 => [0xE0, 0xE4, 0xE8]
  | .v3 => [0xF0, 0xF4, 0xF8]

/-- The offsets of the entries of R (R62). -/
def resultOffsets : List Nat := [0x80, 0x84, 0x88, 0x8C, 0x90, 0x94, 0x98, 0x9C, 0xA0]

/-- The offsets of the entries of K (R62). -/
def keyOffsets : List Nat := [0x40, 0x44, 0x48, 0x4C, 0x50, 0x54, 0x58, 0x5C, 0x60]

/-- The offsets of the registers in a command's write set, STATUS apart: none (R123); MOD, DET, INV, S, PCNT, TFLAG, K, R
and V (R124); DET (R141); R (R144); DET and R (R147, log 9); INV (R151, log 9); V[vd] (R170, R185, R188); PCNT and TFLAG
(R181). -/
def writtenOffsets : Instr → List Nat
  | .nop => []
  | .setmod _ => [0x14, 0x18, 0x1C, 0x20, 0x24, 0x28] ++ keyOffsets ++ resultOffsets ++ vectorOffsets .v0
      ++ vectorOffsets .v1 ++ vectorOffsets .v2 ++ vectorOffsets .v3
  | .det _ => [0x18]
  | .adj _ => resultOffsets
  | .minv _ => 0x18 :: resultOffsets
  | .sinv _ => [0x1C]
  | .matvec vd _ _ => vectorOffsets vd
  | .parity _ => [0x24, 0x28]
  | .twist vd _ _ _ => vectorOffsets vd
  | .untwist vd _ _ _ => vectorOffsets vd

/-! ## The host -/

/-- The access is one the busy hazard allows while a command is pending: a read, a refused access, or a write to CTRL
or STATUS (R70, R250). -/
def BusRequest.politeWhileBusy (q : BusRequest) : Bool :=
  !q.write || !q.admitted || q.offset = 0x08#8 || q.offset = 0x0C#8

/-- The next turn keeps the busy hazard (R250). -/
def State.politeNext (s : State) : Bool :=
  match s.inputs with
  | .bus q :: _ => !s.busy || q.politeWhileBusy
  | .platform a :: _ =>
    match Config.windowOffset a.addr with
    | none => true
    | some off => !s.busy || (a.request off).politeWhileBusy
  | _ => true

/-- The next turn is this transaction at the port, asked for there or passed on by the platform. -/
def State.nextAccess (s : State) (q : BusRequest) : Prop :=
  (∃ rest, s.inputs = .bus q :: rest) ∨
    (∃ a off rest, s.inputs = .platform a :: rest ∧ Config.windowOffset a.addr = some off ∧ q = a.request off)

/-- The engine has the next turn: it is its entry of the list, or no entry is left (log 2). -/
def State.engineNext (s : State) : Prop := s.inputs = [] ∨ ∃ rest, s.inputs = .engine :: rest

/-- The state with the next turn taken off the list. -/
def State.popped (s : State) : State := { s with inputs := s.inputs.tail }

/-! ## The spec's arithmetic over integer entries (R140, R143, R145) -/

/-- The entries of a residue matrix as integers. -/
def entries (a : Mat3 Residue) (i j : Fin 3) : Int := val (a.get i j)

/-- R140's cofactor expansion along the first row. -/
def detOf (e : Fin 3 → Fin 3 → Int) : Int :=
  e 0 0 * (e 1 1 * e 2 2 - e 1 2 * e 2 1) - e 0 1 * (e 1 0 * e 2 2 - e 1 2 * e 2 0)
    + e 0 2 * (e 1 0 * e 2 1 - e 1 1 * e 2 0)

/-- The 2 by 2 minor determinant left when row i and column j are taken out (R143). -/
def minorOf (e : Fin 3 → Fin 3 → Int) (i j : Fin 3) : Int :=
  e (i.succAbove 0) (j.succAbove 0) * e (i.succAbove 1) (j.succAbove 1)
    - e (i.succAbove 0) (j.succAbove 1) * e (i.succAbove 1) (j.succAbove 0)

/-- The cofactor of entry (i, j): the signed minor (R143). -/
def cofactorOf (e : Fin 3 → Fin 3 → Int) (i j : Fin 3) : Int := (-1) ^ (i.val + j.val) * minorOf e i j

/-- The adjugate: the transpose of the cofactor matrix (R143). -/
def adjOf (e : Fin 3 → Fin 3 → Int) (i j : Fin 3) : Int := cofactorOf e j i

/-- The integer matrix product (R145). -/
def mulOf (e f : Fin 3 → Fin 3 → Int) (i j : Fin 3) : Int := e i 0 * f 0 j + e i 1 * f 1 j + e i 2 * f 2 j

/-- Entry (i, j) of the identity matrix. -/
def identityOf (i j : Fin 3) : Int := if i = j then 1 else 0

end Sys2Proof.Machine
end

