-- ==== Sys2Proof/Certificates/Slice0/Obligations.lean ====
section
/-! DEFINITION. The statements for the provers. Each docstring names the rules of spec/ it formalises. A next state is
written as the state before with the fields the command writes, so that the equation is the command's frame as well:
every field it does not name is unchanged. -/

open Sys2Proof Sys2Proof.Machine

/-! ## Encoding -/

/-- Words of every command, written out from R91 and R102, and one illegal word for each reason of R99. -/
def Obligations.SampleWordsDecode : Prop :=
  decode 0x00000000#32 = .command .nop ∧
  decode 0x1000001A#32 = .command (.setmod 26#8) ∧
  decode 0x20010000#32 = .command (.det .r) ∧
  decode 0x30000000#32 = .command (.adj .k) ∧
  decode 0x40010000#32 = .command (.minv .r) ∧
  decode 0x50001000#32 = .command (.sinv .s) ∧
  decode 0x60010E00#32 = .command (.matvec .v3 .r .v2) ∧
  decode 0x70000300#32 = .command (.parity .v3) ∧
  decode 0x8000C500#32 = .command (.twist .v1 .v1 .flag .det) ∧
  decode 0x90006900#32 = .command (.untwist .v2 .v1 .sub .inv) ∧
  decode 0xA0000000#32 = .illegal .reservedOpcode ∧
  decode 0x00020000#32 = .illegal .reservedBits ∧
  decode 0x10000100#32 = .illegal .unusedField ∧
  decode 0x8000F000#32 = .illegal .reservedScalar

/-- R91, R100: no bit of a well-formed command is lost between the encoder and the decoder. -/
def Obligations.DecodeOfEncodeIsTheCommand : Prop :=
  ∀ i : Instr, i.wellFormed = true → decode (encode i) = .command i

/-- R99, R100: a word decodes to a command only if it is that command's one word, so "no word means two things" (D12). -/
def Obligations.DecodedWordsReencode : Prop :=
  ∀ (w : Word) (i : Instr), decode w = .command i → i.wellFormed = true ∧ encode i = w

/-- R92: at most one row of the opcode map matches a word; a decoded command's row matches its word; a word that a row
matches decodes to a command, but for SSRC = 3 in SINV, TWIST and UNTWIST; a word that no row matches is illegal. -/
def Obligations.OpcodeMapSelectsTheCommand : Prop :=
  (∀ (w : Word), ∀ a ∈ opcodeMap, ∀ b ∈ opcodeMap, a.selects w = true → b.selects w = true → a = b) ∧
  (∀ (w : Word) (i : Instr), decode w = .command i → i.row ∈ opcodeMap ∧ i.row.selects w = true) ∧
  (∀ (w : Word), (∃ row ∈ opcodeMap, row.selects w = true) →
    (∃ i, decode w = .command i) ∨
      (decode w = .illegal .reservedScalar ∧ w.extractLsb' 12 2 = 3#2 ∧
        (w.extractLsb' 28 4 = 5#4 ∨ w.extractLsb' 28 4 = 8#4 ∨ w.extractLsb' 28 4 = 9#4))) ∧
  (∀ (w : Word), (∀ row ∈ opcodeMap, row.selects w = false) → ∃ why, decode w = .illegal why)

/-- R99: the four conditions under which a word is illegal. The unused fields of an opcode are the bits below RSV that
its row of R92 does not use. -/
def Obligations.IllegalWordsAreTheListedOnes : Prop :=
  ∀ w : Word, (∃ why, decode w = .illegal why) ↔
    (10 ≤ (w.extractLsb' 28 4).toNat ∨ w.extractLsb' 17 11 ≠ 0#11 ∨
      (w.extractLsb' 28 4 = 0#4 ∧ w &&& 0x0001FFFF#32 ≠ 0#32) ∨
      (w.extractLsb' 28 4 = 1#4 ∧ w &&& 0x0001FF00#32 ≠ 0#32) ∨
      (w.extractLsb' 28 4 = 2#4 ∧ w &&& 0x0000FFFF#32 ≠ 0#32) ∨
      (w.extractLsb' 28 4 = 3#4 ∧ w &&& 0x0000FFFF#32 ≠ 0#32) ∨
      (w.extractLsb' 28 4 = 4#4 ∧ w &&& 0x0000FFFF#32 ≠ 0#32) ∨
      (w.extractLsb' 28 4 = 5#4 ∧ (w &&& 0x0001CFFF#32 ≠ 0#32 ∨ w.extractLsb' 12 2 = 3#2)) ∨
      (w.extractLsb' 28 4 = 6#4 ∧ w &&& 0x0000F0FF#32 ≠ 0#32) ∨
      (w.extractLsb' 28 4 = 7#4 ∧ w &&& 0x0001FCFF#32 ≠ 0#32) ∨
      (w.extractLsb' 28 4 = 8#4 ∧ (w &&& 0x000100FF#32 ≠ 0#32 ∨ w.extractLsb' 12 2 = 3#2)) ∨
      (w.extractLsb' 28 4 = 9#4 ∧ (w &&& 0x000100FF#32 ≠ 0#32 ∨ w.extractLsb' 12 2 = 3#2)))

/-- R102: a command's line of assembler text is read back as the command. The printed form (one blank, decimal numbers) is
the model's choice (log 10). -/
def Obligations.AssembledTextGivesTheCommand : Prop :=
  ∀ i : Instr, i.wellFormed = true → assemble (instrText i) = some i

/-- R103: every pseudo-command expands to the one command its row names. -/
def Obligations.PseudoCommandsExpand : Prop :=
  ∀ vd vs : VReg,
    assemble (formText "ENC".toList [vectorText vd, vectorText vs]) = some (.matvec vd .k vs) ∧
    assemble (formText "DEC".toList [vectorText vd, vectorText vs]) = some (.matvec vd .r vs) ∧
    assemble (formText "TWF".toList [vectorText vd]) = some (.twist vd vd .flag .det) ∧
    assemble (formText "UTWF".toList [vectorText vd]) = some (.untwist vd vd .flag .det) ∧
    assemble (formText "CLASSIFY".toList [vectorText vs]) = some (.parity vs)

/-! ## Reset and the invariant -/

/-- R38: the reset value of every piece of state, the two constants and the interrupt line. -/
def Obligations.ResetValues : Prop :=
  State.reset.read .id = 0x4D444145#32 ∧ State.reset.read .version = 0x00000001#32 ∧
  State.reset.read .ctrl = 0#32 ∧ State.reset.read .status = 0#32 ∧ State.reset.pend = none ∧
  State.reset.modulus = 36#8 ∧ (∀ i j, State.reset.k.get i j = 0#8) ∧ (∀ i j, State.reset.r.get i j = 0#8) ∧
  (∀ n l, (State.reset.v.get n).get l = 0#8) ∧ State.reset.s = 0#8 ∧ State.reset.det = 0#8 ∧
  State.reset.inv = 0#8 ∧ State.reset.pcnt = 0#2 ∧ State.reset.tflag = 0#2 ∧ State.reset.irq = false

/-- The invariant holds right after reset (R37, R38). -/
def Obligations.ResetMeetsTheInvariant : Prop := State.reset.Inv

/-- R37, R26, R28: a legal modulus, residues below it, ERRCODE = 0 exactly when ERR = 0, and reset values while `rst_n` is
0 are kept by every step from every state that has them. -/
def Obligations.StepKeepsTheInvariant : Prop :=
  ∀ s t : State, s.Inv → step s = .next t → t.Inv

/-- R37: at every state a run from reset reaches, under any list of host accesses, engine turns and reset levels, every
residue register is below MOD, and PCNT and TFLAG are at most 3. -/
def Obligations.ReachableResiduesBelowModulus : Prop :=
  ∀ (turns : List Event) (n : Nat) (t : State),
    Host.Core.run Sys2Proof.core n { State.reset with inputs := turns } = .next t →
    t.Reduced ∧ t.pcnt.toNat ≤ 3 ∧ t.tflag.toNat ≤ 3

/-! ## Issue and completion -/

/-- R120: a write to CMD while BUSY = 0 makes its word pending, unchecked, and clears DONE, and nothing else; while
BUSY = 1 it is dropped (R70), and that it answers err = 0 then is the model's choice (log 16). -/
def Obligations.IssueMakesTheWordPending : Prop :=
  ∀ (s : State) (q : BusRequest), s.rstN = true → s.nextAccess q → q.write = true → q.size = .word → q.offset = 0x10#8 →
    ∃ a : BusResponse, a.err = false ∧
      (s.pend = none → step s = .next { s.popped with
        pend := some q.wdata, status := { s.status with done := false }, resp := some a, draws := s.draws + 1 }) ∧
      (s.pend ≠ none → step s = .next { s.popped with
        status := { s.status with err := true, errcode := .busyWrite }, resp := some a, draws := s.draws + 1 })

/-- R121: when the engine has the turn and the pending word decodes to a command, the step is that command's completion,
in the state less the turn. That an empty list gives the engine the turn is the model's choice (log 2). -/
def Obligations.EngineTurnRunsThePendingCommand : Prop :=
  ∀ (s : State) (w : Word) (i : Instr), s.rstN = true → s.pend = some w → decode w = .command i → s.engineNext →
    step s = exec i s.popped

/-- R99, R121, R211: when the pending word is illegal the engine's turn (an empty list gives it, log 2) fails it with
ILLEGAL: STATUS and PEND alone change. -/
def Obligations.IllegalWordFailsAtCompletion : Prop :=
  ∀ (s : State) (w : Word) (why : IllegalReason), s.rstN = true → s.pend = some w → decode w = .illegal why →
    s.engineNext → step s = .next { s.popped with
      pend := none, status := { s.status with err := true, errcode := .illegal, done := true } }

/-- R211, with the causes of R210 and their order R214: a command that fails with code c changes STATUS alone, and a
command that does not fail completes and leaves ERR and ERRCODE as they were (R215). -/
def Obligations.FailingCommandsChangeOnlyStatus : Prop :=
  ∀ (i : Instr) (s : State), s.modLegal →
    (∀ c, commandFails i s c → exec i s = .next { s with
      pend := none, status := { s.status with err := true, errcode := c, done := true } }) ∧
    ((∀ c, ¬ commandFails i s c) → ∃ t, exec i s = .next t ∧ t.pend = none ∧ t.status.done = true ∧
      t.status.err = s.status.err ∧ t.status.errcode = s.status.errcode)

/-- R121: a pending command is completed, or discarded by a reset, after at most one turn more than the list still holds,
whatever the host does meanwhile; until then the word stays pending undisturbed (R70). That the engine moves once the list
is empty is the model's form of weak fairness (log 2). -/
def Obligations.PendingCommandIsCompleted : Prop :=
  ∀ (s : State) (w : Word), s.rstN = true → s.pend = some w →
    ∃ (n : Nat) (t : State), n ≤ s.inputs.length + 1 ∧ Host.Core.run Sys2Proof.core n s = .next t ∧ t.pend = none ∧
      ∀ j < n, ∃ u : State, Host.Core.run Sys2Proof.core j s = .next u ∧ u.pend = some w

/-! ## The commands

Each statement begins with the command's words: those that decode to it, and the illegal ones among those with its
opcode. -/

/-- R123: NOP is the word 0, any other word with OPC = 0 is illegal, and NOP changes nothing but what every completion
changes. -/
def Obligations.NopOnlyCompletes : Prop :=
  decode 0x00000000#32 = .command .nop ∧
  (∀ w : Word, w.extractLsb' 28 4 = 0#4 → w &&& 0x0FFFFFFF#32 ≠ 0#32 →
    ∃ why, decode w = .illegal why) ∧
  ∀ s : State, exec .nop s = .next { s with pend := none, status := { s.status with done := true } }

/-- R124: SETMOD below 2 fails with BADMOD; else it sets MOD and clears every residue register, PCNT, TFLAG and the three
condition flags. -/
def Obligations.SetmodSetsTheModulus : Prop :=
  (∀ m : BitVec 8, decode (0x10000000#32 ||| m.setWidth 32) = .command (.setmod m)) ∧
  (∀ w : Word, w.extractLsb' 28 4 = 1#4 → w &&& 0x0FFFFF00#32 ≠ 0#32 →
    ∃ why, decode w = .illegal why) ∧
  ∀ (m : BitVec 8) (s : State),
    (m.toNat < 2 → exec (.setmod m) s = .next { s with
      pend := none, status := { s.status with err := true, errcode := .badMod, done := true } }) ∧
    (2 ≤ m.toNat → ∃ t : State, exec (.setmod m) s = .next t ∧
      t = { s with
        modulus := m, k := t.k, r := t.r, v := t.v, s := 0#8, det := 0#8, inv := 0#8, pcnt := 0#2, tflag := 0#2
        pend := none, status := { s.status with cop := false, siv := false, miv := false, done := true } } ∧
      (∀ i j, t.k.get i j = 0#8) ∧ (∀ i j, t.r.get i j = 0#8) ∧ ∀ n l, (t.v.get n).get l = 0#8)

/-- R141 (with R140): DET writes the cofactor determinant mod M and COP, and nothing else. -/
def Obligations.DetWritesTheDeterminant : Prop :=
  (∀ m : MatSel, decode (0x20000000#32 ||| m.code.setWidth 32 <<< 16) = .command (.det m)) ∧
  (∀ w : Word, w.extractLsb' 28 4 = 2#4 → w &&& 0x0FFEFFFF#32 ≠ 0#32 →
    ∃ why, decode w = .illegal why) ∧
  ∀ (m : MatSel) (s : State), s.modLegal →
    ∃ t : State, exec (.det m) s = .next t ∧
      t = { s with det := t.det, pend := none, status := { s.status with cop := t.status.cop, done := true } } ∧
      val t.det = detOf (entries (s.matrix m)) % val s.modulus ∧
      (t.status.cop = true ↔ Nat.gcd t.det.toNat s.modulus.toNat = 1)

/-- R144 (with R143): ADJ writes R with the transposed cofactors mod M, and nothing else; `ADJ R` reads the old R. -/
def Obligations.AdjWritesTheAdjugate : Prop :=
  (∀ m : MatSel, decode (0x30000000#32 ||| m.code.setWidth 32 <<< 16) = .command (.adj m)) ∧
  (∀ w : Word, w.extractLsb' 28 4 = 3#4 → w &&& 0x0FFEFFFF#32 ≠ 0#32 →
    ∃ why, decode w = .illegal why) ∧
  ∀ (m : MatSel) (s : State), s.modLegal →
    ∃ t : State, exec (.adj m) s = .next t ∧
      t = { s with r := t.r, pend := none, status := { s.status with done := true } } ∧
      ∀ i j, val (t.r.get i j) =
        ((-1) ^ (j.val + i.val) * minorOf (entries (s.matrix m)) j i) % val s.modulus

/-- R147: MINV writes DET, COP and MIV, and R with the scaled adjugate when the determinant is a unit; when it is not, R
stays and COP = MIV = 0. `u` is `inv_M(d)` of R10. -/
def Obligations.MinvWritesTheInverse : Prop :=
  (∀ m : MatSel, decode (0x40000000#32 ||| m.code.setWidth 32 <<< 16) = .command (.minv m)) ∧
  (∀ w : Word, w.extractLsb' 28 4 = 4#4 → w &&& 0x0FFEFFFF#32 ≠ 0#32 →
    ∃ why, decode w = .illegal why) ∧
  ∀ (m : MatSel) (s : State), s.modLegal →
    ∃ t : State, exec (.minv m) s = .next t ∧
      val t.det = detOf (entries (s.matrix m)) % val s.modulus ∧
      (Nat.gcd t.det.toNat s.modulus.toNat = 1 →
        t = { s with
          det := t.det, r := t.r, pend := none, status := { s.status with cop := true, miv := true, done := true } } ∧
        ∃ u : Int, 0 ≤ u ∧ u < val s.modulus ∧ val t.det * u % val s.modulus = 1 ∧
          ∀ i j, val (t.r.get i j) =
            (adjOf (entries (s.matrix m)) i j * u) % val s.modulus) ∧
      (Nat.gcd t.det.toNat s.modulus.toNat ≠ 1 →
        t = { s with det := t.det, pend := none, status := { s.status with cop := false, miv := false, done := true } })

/-- R151: SINV writes INV with the inverse of DET, S or INV and SIV = 1 when the operand is a unit, else SIV = 0 alone;
the reserved SSRC code is ILLEGAL. -/
def Obligations.SinvWritesTheInverse : Prop :=
  (∀ src : ScalarSrc, src ≠ .reserved → decode (0x50000000#32 ||| src.code.setWidth 32 <<< 12) = .command (.sinv src)) ∧
  (∀ w : Word, w.extractLsb' 28 4 = 5#4 → w &&& 0x0FFFCFFF#32 ≠ 0#32 ∨ w.extractLsb' 12 2 = 3#2 →
    ∃ why, decode w = .illegal why) ∧
  ∀ (src : ScalarSrc) (s : State), s.modLegal →
    (src = .reserved → exec (.sinv src) s = .next { s with
      pend := none, status := { s.status with err := true, errcode := .illegal, done := true } }) ∧
    ∀ a : Residue, ((src = .det ∧ a = s.det) ∨ (src = .s ∧ a = s.s) ∨ (src = .inv ∧ a = s.inv)) →
      (Nat.gcd a.toNat s.modulus.toNat = 1 → ∃ t : State, exec (.sinv src) s = .next t ∧
        t = { s with inv := t.inv, pend := none, status := { s.status with siv := true, done := true } } ∧
        t.inv.toNat < s.modulus.toNat ∧ a.toNat * t.inv.toNat % s.modulus.toNat = 1) ∧
      (Nat.gcd a.toNat s.modulus.toNat ≠ 1 → exec (.sinv src) s = .next { s with
        pend := none, status := { s.status with siv := false, done := true } })

/-- R170: MATVEC writes V[vd] with the product of the matrix and the column V[vs] mod M, and nothing else; with vd = vs it
reads the old block. -/
def Obligations.MatvecWritesTheProduct : Prop :=
  (∀ (vd vs : VReg) (m : MatSel), decode (0x60000000#32 ||| m.code.setWidth 32 <<< 16 ||| vd.code.setWidth 32 <<< 10
    ||| vs.code.setWidth 32 <<< 8) = .command (.matvec vd m vs)) ∧
  (∀ w : Word, w.extractLsb' 28 4 = 6#4 → w &&& 0x0FFEF0FF#32 ≠ 0#32 →
    ∃ why, decode w = .illegal why) ∧
  ∀ (vd vs : VReg) (m : MatSel) (s : State), s.modLegal →
    ∃ t : State, exec (.matvec vd m vs) s = .next t ∧
      t = { s with v := t.v, pend := none, status := { s.status with done := true } } ∧
      (∀ n, n ≠ vd → t.v.get n = s.v.get n) ∧
      ∀ i, val ((t.v.get vd).get i) =
        (entries (s.matrix m) i 0 * val ((s.v.get vs).get 0)
          + entries (s.matrix m) i 1 * val ((s.v.get vs).get 1)
          + entries (s.matrix m) i 2 * val ((s.v.get vs).get 2)) % val s.modulus

/-- R181 (with R180): PARITY writes PCNT with the number of even lanes and TFLAG with its class, and nothing else. -/
def Obligations.ParityCountsEvenLanes : Prop :=
  (∀ vs : VReg, decode (0x70000000#32 ||| vs.code.setWidth 32 <<< 8) = .command (.parity vs)) ∧
  (∀ w : Word, w.extractLsb' 28 4 = 7#4 → w &&& 0x0FFFFCFF#32 ≠ 0#32 →
    ∃ why, decode w = .illegal why) ∧
  ∀ (vs : VReg) (s : State), ∃ t : State, exec (.parity vs) s = .next t ∧
    t = { s with pcnt := t.pcnt, tflag := t.tflag, pend := none, status := { s.status with done := true } } ∧
    t.pcnt.toNat = (Finset.univ.filter (fun l : Fin 3 => ((s.v.get vs).get l).toNat % 2 = 0)).card ∧
    (t.pcnt.toNat ≤ 1 → t.tflag = 0#2) ∧ (t.pcnt.toNat = 2 → t.tflag = 1#2) ∧ (3 ≤ t.pcnt.toNat → t.tflag = 2#2)

/-- R185 (with R183, R184): TWIST writes V[vd] lane by lane with the sum, difference or product mod M, and nothing else;
it fails with ILLEGAL for the reserved SSRC code, and with BADFLAG when OP is FLAG and TFLAG is 3. -/
def Obligations.TwistWritesTheLanes : Prop :=
  (∀ (vd vs : VReg) (op : OpSel) (src : ScalarSrc), src ≠ .reserved →
    decode (0x80000000#32 ||| op.code.setWidth 32 <<< 14 ||| src.code.setWidth 32 <<< 12 ||| vd.code.setWidth 32 <<< 10
      ||| vs.code.setWidth 32 <<< 8) = .command (.twist vd vs op src)) ∧
  (∀ w : Word, w.extractLsb' 28 4 = 8#4 → w &&& 0x0FFF00FF#32 ≠ 0#32 ∨ w.extractLsb' 12 2 = 3#2 →
    ∃ why, decode w = .illegal why) ∧
  ∀ (vd vs : VReg) (op : OpSel) (src : ScalarSrc) (s : State), s.modLegal →
    (src = .reserved → exec (.twist vd vs op src) s = .next { s with
      pend := none, status := { s.status with err := true, errcode := .illegal, done := true } }) ∧
    (src ≠ .reserved → op = .flag ∧ s.tflag = 3#2 → exec (.twist vd vs op src) s = .next { s with
      pend := none, status := { s.status with err := true, errcode := .badFlag, done := true } }) ∧
    ∀ a : Residue, ((src = .det ∧ a = s.det) ∨ (src = .s ∧ a = s.s) ∨ (src = .inv ∧ a = s.inv)) →
      ¬ (op = .flag ∧ s.tflag = 3#2) →
      ∃ t : State, exec (.twist vd vs op src) s = .next t ∧
        t = { s with v := t.v, pend := none, status := { s.status with done := true } } ∧
        (∀ n, n ≠ vd → t.v.get n = s.v.get n) ∧
        ∀ l,
          (op = .add ∨ (op = .flag ∧ s.tflag = 0#2) →
            val ((t.v.get vd).get l) = (val ((s.v.get vs).get l) + val a) % val s.modulus) ∧
          (op = .sub ∨ (op = .flag ∧ s.tflag = 1#2) →
            val ((t.v.get vd).get l) = (val ((s.v.get vs).get l) - val a) % val s.modulus) ∧
          (op = .mul ∨ (op = .flag ∧ s.tflag = 2#2) →
            val ((t.v.get vd).get l) = (val ((s.v.get vs).get l) * val a) % val s.modulus)

/-- R188 (with R183, R187, R214): UNTWIST writes V[vd] lane by lane with the difference, the sum, or the product by the
inverse of the scalar, and nothing else (INV and SIV stay); it fails with ILLEGAL, then BADFLAG, then NONINV_DET. -/
def Obligations.UntwistWritesTheLanes : Prop :=
  (∀ (vd vs : VReg) (op : OpSel) (src : ScalarSrc), src ≠ .reserved →
    decode (0x90000000#32 ||| op.code.setWidth 32 <<< 14 ||| src.code.setWidth 32 <<< 12 ||| vd.code.setWidth 32 <<< 10
      ||| vs.code.setWidth 32 <<< 8) = .command (.untwist vd vs op src)) ∧
  (∀ w : Word, w.extractLsb' 28 4 = 9#4 → w &&& 0x0FFF00FF#32 ≠ 0#32 ∨ w.extractLsb' 12 2 = 3#2 →
    ∃ why, decode w = .illegal why) ∧
  ∀ (vd vs : VReg) (op : OpSel) (src : ScalarSrc) (s : State), s.modLegal →
    (src = .reserved → exec (.untwist vd vs op src) s = .next { s with
      pend := none, status := { s.status with err := true, errcode := .illegal, done := true } }) ∧
    (src ≠ .reserved → op = .flag ∧ s.tflag = 3#2 → exec (.untwist vd vs op src) s = .next { s with
      pend := none, status := { s.status with err := true, errcode := .badFlag, done := true } }) ∧
    ∀ a : Residue, ((src = .det ∧ a = s.det) ∨ (src = .s ∧ a = s.s) ∨ (src = .inv ∧ a = s.inv)) →
      ((op = .mul ∨ (op = .flag ∧ s.tflag = 2#2)) → Nat.gcd a.toNat s.modulus.toNat ≠ 1 →
        exec (.untwist vd vs op src) s = .next { s with
          pend := none, status := { s.status with err := true, errcode := .noninvDet, done := true } }) ∧
      (¬ (op = .flag ∧ s.tflag = 3#2) →
        ((op = .mul ∨ (op = .flag ∧ s.tflag = 2#2)) → Nat.gcd a.toNat s.modulus.toNat = 1) →
        ∃ t : State, exec (.untwist vd vs op src) s = .next t ∧
          t = { s with v := t.v, pend := none, status := { s.status with done := true } } ∧
          (∀ n, n ≠ vd → t.v.get n = s.v.get n) ∧
          ∀ l,
            (op = .add ∨ (op = .flag ∧ s.tflag = 0#2) →
              val ((t.v.get vd).get l) = (val ((s.v.get vs).get l) - val a) % val s.modulus) ∧
            (op = .sub ∨ (op = .flag ∧ s.tflag = 1#2) →
              val ((t.v.get vd).get l) = (val ((s.v.get vs).get l) + val a) % val s.modulus) ∧
            (op = .mul ∨ (op = .flag ∧ s.tflag = 2#2) →
              ∃ u : Int, 0 ≤ u ∧ u < val s.modulus ∧ val a * u % val s.modulus = 1 ∧
                val ((t.v.get vd).get l) = (val ((s.v.get vs).get l) * u) % val s.modulus))

/-! ## Laws of the units -/

/-- R145: the matrix times the adjugate ADJ writes is the determinant times the identity, mod M. -/
def Obligations.AdjugateTimesMatrixIsDeterminant : Prop :=
  ∀ (m : MatSel) (s t : State), s.modLegal → exec (.adj m) s = .next t →
    ∀ i j, mulOf (entries (s.matrix m)) (entries t.r) i j % val s.modulus =
      (detOf (entries (s.matrix m)) % val s.modulus * identityOf i j) % val s.modulus

/-- R148: after a MINV that sets MIV, R is the inverse of the matrix read, from both sides. -/
def Obligations.MinvResultIsInverseOnBothSides : Prop :=
  ∀ (m : MatSel) (s t : State), s.modLegal → exec (.minv m) s = .next t → t.status.miv = true →
    ∀ i j, mulOf (entries (s.matrix m)) (entries t.r) i j % val s.modulus = identityOf i j ∧
      mulOf (entries t.r) (entries (s.matrix m)) i j % val s.modulus = identityOf i j

/-- R10, R152: the inverse SINV writes is the only one below M, so no other method can give another. -/
def Obligations.SinvResultIsUnique : Prop :=
  ∀ (src : ScalarSrc) (a : Residue) (s t : State), s.modLegal → s.scalar src = some a →
    exec (.sinv src) s = .next t → t.status.siv = true →
    ∀ u : Nat, u < s.modulus.toNat → a.toNat * u % s.modulus.toNat = 1 → u = t.inv.toNat

/-- R171: once MINV K has set MIV, and while K, R and MOD stay (the rule names K alone), multiplying by K and then by R, or by
R and then by K, gives back the block. V[c] at the end is V[a] as it was at the start; where the first command does not
overwrite V[a], it is V[a] at the end too (log 13). -/
def Obligations.MatvecByInverseRestoresTheBlock : Prop :=
  ∀ (s0 s1 s : State) (va vb vc : VReg) (m m' : MatSel), s0.modLegal → exec (.minv .k) s0 = .next s1 →
    s1.status.miv = true → s.modulus = s1.modulus → s.k = s1.k → s.r = s1.r → s.Reduced →
    (m = .k ∧ m' = .r) ∨ (m = .r ∧ m' = .k) →
    ∃ t u : State, exec (.matvec vb m va) s = .next t ∧ exec (.matvec vc m' vb) t = .next u ∧
      u.v.get vc = s.v.get va ∧ (vb ≠ va → u.v.get vc = u.v.get va)

/-- R189: UNTWIST with the same effective operation and scalar reverses TWIST lane by lane: for Add and Subtract with every
scalar, for Multiply with a unit. The two commands may name the operation and the scalar in different ways (FLAG or the
operation itself, any scalar source), and the UNTWIST may come in any later state that has the MOD, and in V[vs'] the
block, that TWIST left. TWIST leaves MOD, TFLAG and the scalars, so the UNTWIST may also come at once. -/
def Obligations.UntwistReversesTwist : Prop :=
  ∀ (s : State) (vd vs : VReg) (op : OpSel) (src : ScalarSrc) (o : TwistOp) (a : Residue),
    s.modLegal → s.Reduced → s.scalar src = some a → namesOp op s.tflag o →
    (o = .mul → Nat.gcd a.toNat s.modulus.toNat = 1) →
    ∃ t : State, exec (.twist vd vs op src) s = .next t ∧
      (t.modulus = s.modulus ∧ t.tflag = s.tflag ∧ ∀ src', t.scalar src' = s.scalar src') ∧
      ∀ (u : State) (ve vs' : VReg) (op' : OpSel) (src' : ScalarSrc), u.modulus = t.modulus →
        u.v.get vs' = t.v.get vd → u.scalar src' = some a → namesOp op' u.tflag o →
        ∃ w : State, exec (.untwist ve vs' op' src') u = .next w ∧ w.v.get ve = s.v.get vs


/-- R190: for Multiply by a non-unit TWIST succeeds, but two different blocks of residues give the same result, and the
matching UNTWIST fails with NONINV_DET. -/
def Obligations.NonUnitMultiplyLosesInformation : Prop :=
  ∀ (s : State) (vd ve vs : VReg) (op : OpSel) (src : ScalarSrc) (a : Residue),
    s.modLegal → s.scalar src = some a → multiplies op s.tflag → Nat.gcd a.toNat s.modulus.toNat ≠ 1 →
    (∃ t : State, exec (.twist vd vs op src) s = .next t ∧
      t.status = { s.status with done := true } ∧
      exec (.untwist ve vd op src) t = .next { t with
        pend := none, status := { t.status with err := true, errcode := .noninvDet, done := true } }) ∧
    ∃ (x y : Vec3 Residue) (t u : State), x ≠ y ∧
      (∀ l, (x.get l).toNat < s.modulus.toNat) ∧ (∀ l, (y.get l).toNat < s.modulus.toNat) ∧
      exec (.twist vd vs op src) (s.setV vs x) = .next t ∧ exec (.twist vd vs op src) (s.setV vs y) = .next u ∧
      t.v.get vd = u.v.get vd

/-- R191: after MINV K has set MIV, with DET, K, R and MOD unchanged since (the rule names DET and K alone, log 13) and TFLAG
a flag, the four commands of the rule carry V0 through encryption and back: V3 = V0 at the end. -/
def Obligations.BlockRoundTrip : Prop :=
  ∀ s0 s1 s : State, s0.modLegal → exec (.minv .k) s0 = .next s1 → s1.status.miv = true →
    s.modulus = s1.modulus → s.k = s1.k → s.r = s1.r → s.det = s1.det → s.Reduced → s.tflag ≠ 3#2 →
    ∃ a b c d : State,
      exec (.matvec .v1 .k .v0) s = .next a ∧ exec (.twist .v1 .v1 .flag .det) a = .next b ∧
      exec (.untwist .v2 .v1 .flag .det) b = .next c ∧ exec (.matvec .v3 .r .v2) c = .next d ∧
      d.v.get .v3 = d.v.get .v0 ∧ d.v.get .v0 = s.v.get .v0

/-! ## The register window -/

/-- R63: a narrow or misaligned access answers err = 1 and changes no register, and a read of that kind answers rdata = 0;
every other access is performed and answers err = 0, which for a write dropped by R70 is the model's choice (log 16). That a
refused access while BUSY = 1 is no BUSY_WRITE is read from R63 (log 15). -/
def Obligations.RefusedAccessAnswersError : Prop :=
  ∀ (s : State) (q : BusRequest), s.rstN = true → s.nextAccess q →
    (q.size ≠ .word ∨ q.offset.toNat % 4 ≠ 0 →
      ∃ a : BusResponse, step s = .next { s.popped with resp := some a, draws := s.draws + 1 } ∧ a.err = true ∧
        (q.write = false → a.rdata = 0#32)) ∧
    (q.size = .word → q.offset.toNat % 4 = 0 →
      ∃ (t : State) (a : BusResponse), step s = .next t ∧ t.resp = some a ∧ a.err = false)

/-- R62, R65: what an aligned read answers at every offset of the window while no command is pending. -/
def Obligations.IdleReadsFollowTheMap : Prop :=
  ∀ (s : State) (q : BusRequest), s.rstN = true → s.pend = none → s.nextAccess q → q.write = false → q.size = .word →
    q.offset.toNat % 4 = 0 →
    ∃ x : Word, step s = .next { s.popped with resp := some ⟨x, false⟩, draws := s.draws + 1 } ∧
      (q.offset.toNat = 0x00 → x = 0x4D444145#32) ∧
      (q.offset.toNat = 0x04 → x = 0x00000001#32) ∧
      (q.offset.toNat = 0x08 → x.toNat = s.ctrl.ieDone.toNat + 2 * s.ctrl.ieErr.toNat) ∧
      (q.offset.toNat = 0x0C → x.toNat = 2 * s.status.done.toNat + 4 * s.status.err.toNat + 16 * s.status.cop.toNat
        + 32 * s.status.siv.toNat + 64 * s.status.miv.toNat + 256 * s.status.errcode.code.toNat) ∧
      (q.offset.toNat = 0x10 → x = 0#32) ∧
      (q.offset.toNat = 0x14 → x.toNat = s.modulus.toNat) ∧
      (q.offset.toNat = 0x18 → x.toNat = s.det.toNat) ∧
      (q.offset.toNat = 0x1C → x.toNat = s.inv.toNat) ∧
      (q.offset.toNat = 0x20 → x.toNat = s.s.toNat) ∧
      (q.offset.toNat = 0x24 → x.toNat = s.pcnt.toNat) ∧
      (q.offset.toNat = 0x28 → x.toNat = s.tflag.toNat) ∧
      (∀ i j : Fin 3, q.offset.toNat = 0x40 + 4 * (3 * i.val + j.val) → x.toNat = (s.k.get i j).toNat) ∧
      (∀ i j : Fin 3, q.offset.toNat = 0x80 + 4 * (3 * i.val + j.val) → x.toNat = (s.r.get i j).toNat) ∧
      (∀ (n : VReg) (l : Fin 3), q.offset.toNat = 0xC0 + 16 * vregIndex n + 4 * l.val →
        x.toNat = ((s.v.get n).get l).toNat) ∧
      (0x2C ≤ q.offset.toNat ∧ q.offset.toNat ≤ 0x3C ∨ 0x64 ≤ q.offset.toNat ∧ q.offset.toNat ≤ 0x7C ∨
        0xA4 ≤ q.offset.toNat ∧ q.offset.toNat ≤ 0xBC ∨
        (0xC0 ≤ q.offset.toNat ∧ q.offset.toNat % 16 = 12) → x = 0#32)

/-- R65, R72: a read, answered or refused, idle or busy, changes no register of MDAE. -/
def Obligations.ReadsChangeNothing : Prop :=
  ∀ (s : State) (q : BusRequest), s.rstN = true → s.nextAccess q → q.write = false →
    ∃ a : BusResponse, step s = .next { s.popped with resp := some a, draws := s.draws + 1 }

/-- R71: what a busy read answers. A register of the pending command's write set, here offset by offset, answers the free
value of this draw, for every value it may have; STATUS answers bits [2:0] exactly, bits [11:4] free and the rest 0; every
other register answers what it would answer while idle. The model's reading: the free value is `Config.freeWord` of the count
of transactions (log 5), STATUS bit 7 is free with its neighbours (log 8), R and INV are in the write sets of MINV and SINV
whether or not the inverse exists (log 9). -/
def Obligations.BusyReadsAreFreeOrExact : Prop :=
  ∀ (s : State) (q : BusRequest) (p : Word), s.rstN = true → s.pend = some p → s.nextAccess q → q.write = false →
    q.size = .word → q.offset.toNat % 4 = 0 →
    ∃ x y : Word, step s = .next { s.popped with resp := some ⟨x, false⟩, draws := s.draws + 1 } ∧
      step { s with pend := none } =
        .next { s.popped with pend := none, resp := some ⟨y, false⟩, draws := s.draws + 1 } ∧
      (q.offset = 0x0C#8 → x.getLsbD 0 = true ∧ x.getLsbD 1 = s.status.done ∧ x.getLsbD 2 = s.status.err ∧
        x.getLsbD 3 = false ∧ x.extractLsb' 4 8 = (Config.freeWord s.draws).extractLsb' 4 8 ∧
        x.extractLsb' 12 20 = 0#20) ∧
      (∀ i, decode p = .command i → q.offset ≠ 0x0C#8 →
        (q.offset.toNat ∈ writtenOffsets i → x = Config.freeWord s.draws) ∧
        (q.offset.toNat ∉ writtenOffsets i → x = y)) ∧
      (∀ why, decode p = .illegal why → q.offset ≠ 0x0C#8 → x = y)


/-- R67: an aligned host write to S, K[i][j], R[i][j] or V[n][l] while no command is pending stores the unsigned word mod
the MOD of that moment, in that register alone. -/
def Obligations.ResidueWritesAreReduced : Prop :=
  ∀ (s : State) (q : BusRequest), s.modLegal → s.rstN = true → s.pend = none → s.nextAccess q → q.write = true →
    q.size = .word →
    ∃ (t : State) (a : BusResponse), step s = .next t ∧ a.err = false ∧
      (q.offset.toNat = 0x20 → t = { s.popped with s := t.s, resp := some a, draws := s.draws + 1 } ∧
        val t.s = (q.wdata.toNat : Int) % val s.modulus) ∧
      (∀ i j : Fin 3, q.offset.toNat = 0x40 + 4 * (3 * i.val + j.val) →
        t = { s.popped with k := t.k, resp := some a, draws := s.draws + 1 } ∧
        val (t.k.get i j) = (q.wdata.toNat : Int) % val s.modulus ∧
        ∀ i' j', i' ≠ i ∨ j' ≠ j → t.k.get i' j' = s.k.get i' j') ∧
      (∀ i j : Fin 3, q.offset.toNat = 0x80 + 4 * (3 * i.val + j.val) →
        t = { s.popped with r := t.r, resp := some a, draws := s.draws + 1 } ∧
        val (t.r.get i j) = (q.wdata.toNat : Int) % val s.modulus ∧
        ∀ i' j', i' ≠ i ∨ j' ≠ j → t.r.get i' j' = s.r.get i' j') ∧
      (∀ (n : VReg) (l : Fin 3), q.offset.toNat = 0xC0 + 16 * vregIndex n + 4 * l.val →
        t = { s.popped with v := t.v, resp := some a, draws := s.draws + 1 } ∧
        val ((t.v.get n).get l) = (q.wdata.toNat : Int) % val s.modulus ∧
        ∀ n' l', n' ≠ n ∨ l' ≠ l → (t.v.get n').get l' = (s.v.get n').get l')

/-- R68: a host write to TFLAG while no command is pending stores bits [1:0] of the word, and nothing else. -/
def Obligations.TflagWriteStoresTwoBits : Prop :=
  ∀ (s : State) (q : BusRequest), s.rstN = true → s.pend = none → s.nextAccess q → q.write = true → q.size = .word →
    q.offset = 0x28#8 →
    ∃ (t : State) (a : BusResponse), step s = .next t ∧ a.err = false ∧
      t = { s.popped with tflag := t.tflag, resp := some a, draws := s.draws + 1 } ∧
      t.tflag.toNat = q.wdata.toNat % 4

/-- R66: a write to a read-only or reserved offset while no command is pending is ignored without error. -/
def Obligations.ReadOnlyAndReservedWritesAreIgnored : Prop :=
  ∀ (s : State) (q : BusRequest), s.rstN = true → s.pend = none → s.nextAccess q → q.write = true → q.size = .word →
    q.offset.toNat % 4 = 0 →
    (q.offset.toNat ≤ 0x04 ∨ 0x14 ≤ q.offset.toNat ∧ q.offset.toNat ≤ 0x1C ∨ q.offset.toNat = 0x24 ∨
      0x2C ≤ q.offset.toNat ∧ q.offset.toNat ≤ 0x3C ∨ 0x64 ≤ q.offset.toNat ∧ q.offset.toNat ≤ 0x7C ∨
      0xA4 ≤ q.offset.toNat ∧ q.offset.toNat ≤ 0xBC ∨ (0xC0 ≤ q.offset.toNat ∧ q.offset.toNat % 16 = 12)) →
    ∃ a : BusResponse, step s = .next { s.popped with resp := some a, draws := s.draws + 1 } ∧ a.err = false

/-- R26: a write to STATUS, idle or busy, clears DONE where bit 1 is 1, and ERR with ERRCODE where bit 2 is 1; the other
bits are read-only. -/
def Obligations.StatusWriteClearsOnes : Prop :=
  ∀ (s : State) (q : BusRequest), s.rstN = true → s.nextAccess q → q.write = true → q.size = .word → q.offset = 0x0C#8 →
    ∃ a : BusResponse, a.err = false ∧ step s = .next { s.popped with
      status := { s.status with
        done := s.status.done && !q.wdata.getLsbD 1
        err := s.status.err && !q.wdata.getLsbD 2
        errcode := if q.wdata.getLsbD 2 then .none else s.status.errcode }
      resp := some a, draws := s.draws + 1 }

/-- R25: a write to CTRL without SRST, idle or busy, stores the two enables. -/
def Obligations.CtrlWriteStoresTheEnables : Prop :=
  ∀ (s : State) (q : BusRequest), s.rstN = true → s.nextAccess q → q.write = true → q.size = .word → q.offset = 0x08#8 →
    q.wdata.getLsbD 31 = false →
    ∃ a : BusResponse, a.err = false ∧ step s = .next { s.popped with
      ctrl := ⟨q.wdata.getLsbD 0, q.wdata.getLsbD 1⟩, resp := some a, draws := s.draws + 1 }

/-- R241: a write to CTRL with SRST = 1, idle or busy, puts every register at its reset value, discards the pending command
and the enables it carries, and is answered normally. -/
def Obligations.SoftResetRestoresEveryRegister : Prop :=
  ∀ (s : State) (q : BusRequest), s.rstN = true → s.nextAccess q → q.write = true → q.size = .word → q.offset = 0x08#8 →
    q.wdata.getLsbD 31 = true →
    ∃ a : BusResponse, a.err = false ∧ step s = .next { State.reset with
      inputs := s.inputs.tail, resp := some a, draws := s.draws + 1 }

/-- R70 (with R212): while a command is pending an aligned write other than to CTRL or STATUS is dropped: ERR and ERRCODE 5
alone change and the pending command stays. A write to CTRL or STATUS does what it does while idle, and leaves the pending
command alone unless it is the soft reset. That a dropped write answers err = 0 is the model's choice (log 16). -/
def Obligations.BusyWritesAreDropped : Prop :=
  ∀ (s : State) (q : BusRequest) (p : Word), s.rstN = true → s.pend = some p → s.nextAccess q → q.write = true →
    q.size = .word → q.offset.toNat % 4 = 0 →
    (q.offset ≠ 0x08#8 → q.offset ≠ 0x0C#8 →
      ∃ a : BusResponse, a.err = false ∧ step s = .next { s.popped with
        status := { s.status with err := true, errcode := .busyWrite }, resp := some a, draws := s.draws + 1 }) ∧
    (q.offset = 0x08#8 ∨ q.offset = 0x0C#8 →
      ∃ t : State, step { s with pend := none } = .next t ∧
        step s = .next (if q.offset = 0x08#8 ∧ q.wdata.getLsbD 31 = true then t else { t with pend := some p }))

/-- R60, R79: an access at a host address from BASE to BASE + 255 reaches the port at the offset, whatever BASE is; one
outside the window never reaches MDAE. -/
def Obligations.PlatformPassesOnTheWindow : Prop :=
  ∀ (s : State) (a : HostAccess) (rest : List Event), s.inputs = .platform a :: rest →
    (∀ off : Offset, a.addr = Config.base + off.toNat →
      step s = step { s with inputs := .bus ⟨a.write, off, a.size, a.wdata⟩ :: rest }) ∧
    (a.addr < Config.base ∨ Config.base + 256 ≤ a.addr → step s = .next { s with inputs := rest })

/-! ## Reset pin and interrupt -/

/-- R240: driving `rst_n` to 0, and returning it to 1, puts every register at its reset value and discards the pending
command; while it is 0 no bus access is taken (U6: stuck). Two clauses are the model's choice: the latest response stays over
the reset (log 4), and the count of free values with it (log 5); and U6's stuck is the fault `accessInReset` (log 14). -/
def Obligations.HardwareResetRestoresEveryRegister : Prop :=
  ∀ s : State,
    (∀ (level : Bool) (rest : List Event), s.inputs = .rst level :: rest → level = false ∨ s.rstN = false →
      step s = .next { State.reset with rstN := level, inputs := rest, resp := s.resp, draws := s.draws }) ∧
    (∀ q : BusRequest, s.rstN = false → s.nextAccess q → step s = .fault .accessInReset)

/-- R217: the interrupt line is the level of DONE under IE_DONE or ERR under IE_ERR; a completion raises it under IE_DONE
and the issue of a command takes DONE's part of it away. -/
def Obligations.InterruptFollowsDoneAndErr : Prop :=
  (∀ s : State, s.irq = true ↔
    (s.status.done = true ∧ s.ctrl.ieDone = true) ∨ (s.status.err = true ∧ s.ctrl.ieErr = true)) ∧
  (∀ (i : Instr) (s t : State), exec i s = .next t → s.ctrl.ieDone = true → t.irq = true) ∧
  (∀ (s : State) (w : Word), s.status.err = false → (s.issue w).irq = false)

/-! ## Rules about the whole machine -/

/-- R28, R69, R122: a step changes MOD only by completing a pending SETMOD of a legal modulus, in the engine's turn (an
empty list gives it too, log 2), or by a reset. -/
def Obligations.ModulusChangesOnlyBySetmodOrReset : Prop :=
  ∀ s t : State, step s = .next t →
    t.modulus = s.modulus ∨
    (∃ (w : Word) (m : BitVec 8), s.pend = some w ∧ s.engineNext ∧ decode w = .command (.setmod m) ∧ 2 ≤ m.toNat ∧
      t.pend = none ∧ t.modulus = m) ∨
    t = { State.reset with rstN := t.rstN, inputs := t.inputs, resp := t.resp, draws := t.draws }

/-- R23, R25, R29: no command but SETMOD writes K or S (SETMOD clears them, R124, log 12), and no command writes CTRL. -/
def Obligations.CommandsLeaveHostRegistersAlone : Prop :=
  ∀ (i : Instr) (s t : State), exec i s = .next t →
    t.ctrl = s.ctrl ∧ t.rstN = s.rstN ∧ t.inputs = s.inputs ∧ t.resp = s.resp ∧ t.draws = s.draws ∧
    ((∀ m, i ≠ .setmod m) → t.k = s.k ∧ t.s = s.s ∧ t.modulus = s.modulus)

/-- R15, R121: no command changes what any register of the window reads as outside its write set, STATUS apart. -/
def Obligations.WritesStayInTheWriteSet : Prop :=
  ∀ (i : Instr) (s t : State), exec i s = .next t →
    ∀ reg : Reg, reg ≠ .status → writeSet i reg = false → t.read reg = s.read reg

/-- R35: COP is written by DET, MINV and SETMOD alone, SIV by SINV and SETMOD alone, MIV by MINV and SETMOD alone, none of
them by a command that fails; the MIV that MINV writes equals its COP. -/
def Obligations.ConditionFlagsHaveTheirWriters : Prop :=
  ∀ (i : Instr) (s t : State), exec i s = .next t →
    ((∀ m, i ≠ .det m) → (∀ m, i ≠ .minv m) → (∀ m, i ≠ .setmod m) → t.status.cop = s.status.cop) ∧
    ((∀ src, i ≠ .sinv src) → (∀ m, i ≠ .setmod m) → t.status.siv = s.status.siv) ∧
    ((∀ m, i ≠ .minv m) → (∀ m, i ≠ .setmod m) → t.status.miv = s.status.miv) ∧
    ((∃ m, i = .minv m) → t.status.miv = t.status.cop) ∧
    ((∃ c, commandFails i s c) →
      t.status.cop = s.status.cop ∧ t.status.siv = s.status.siv ∧ t.status.miv = s.status.miv)

/-- R35 "No command reads a condition flag", and by R121 and R215 no command reads the rest of STATUS or CTRL either: what a
command writes, into STATUS too, is the same whatever STATUS and CTRL held. Each STATUS field is either written, with one
value (`some`) that does not depend on the old STATUS, or left alone (`none`). -/
def Obligations.CommandsIgnoreStatusAndCtrl : Prop :=
  ∀ (i : Instr) (s : State), ∃ (t : State) (err cop siv miv : Option Bool) (code : Option ErrCode),
    ∀ (f : Status) (c : Ctrl), exec i { s with status := f, ctrl := c } = .next { t with
      ctrl := c
      status :=
        { done := true, err := err.getD f.err, cop := cop.getD f.cop, siv := siv.getD f.siv, miv := miv.getD f.miv
          errcode := code.getD f.errcode } }


/-- R215: ERR, once set, stays 1 until the host writes 1 to STATUS bit 2, which clears ERRCODE too, or a reset. -/
def Obligations.ErrorIsSticky : Prop :=
  ∀ s t : State, step s = .next t → s.status.err = true →
    t.status.err = true ∨
    (∃ q : BusRequest, s.nextAccess q ∧ q.write = true ∧ q.size = .word ∧ q.offset = 0x0C#8 ∧
      q.wdata.getLsbD 2 = true ∧ t.status.errcode = .none) ∨
    t = { State.reset with rstN := t.rstN, inputs := t.inputs, resp := t.resp, draws := t.draws }

/-- R250: a host that keeps the busy hazard never has a write dropped: BUSY_WRITE is not newly reported. -/
def Obligations.PoliteHostDropsNothing : Prop :=
  ∀ s t : State, s.politeNext = true → step s = .next t → t.status.errcode = .busyWrite →
    s.status.errcode = .busyWrite

/-- R216, R240, U6: nothing stops MDAE but a bus access while it is held in reset; every other step, whatever the command,
its operands or the access, answers a next state. -/
def Obligations.OnlyAccessInResetStops : Prop :=
  ∀ s : State, (∃ t, step s = .next t) ∨ (s.rstN = false ∧ (∃ q, s.nextAccess q) ∧ step s = .fault .accessInReset)

/-- R69, R74: a step changes MDAE's registers only by an admitted host write, by the engine's turn with a word pending, or
by a reset; any other step leaves all of them. -/
def Obligations.RegistersChangeOnlyByWriteCompletionOrReset : Prop :=
  ∀ s t : State, step s = .next t →
    t = { s with inputs := s.inputs.tail, resp := t.resp, draws := t.draws } ∨
    (∃ q : BusRequest, s.nextAccess q ∧ q.write = true ∧ q.size = .word ∧ q.offset.toNat % 4 = 0) ∨
    (∃ w : Word, s.pend = some w ∧ s.engineNext ∧ t.pend = none) ∨
    t = { State.reset with rstN := t.rstN, inputs := t.inputs, resp := t.resp, draws := t.draws }
end

