-- ==== Sys2Proof/Laws/Shapes.lean ====
section
/-! SUPPORT. Blocks, matrices and the vector file: reading a lane or an entry of every way to build one. -/

namespace Sys2Proof

variable {α β : Type}

@[simp] theorem Vec3.get_mk_zero (a b c : α) : (Vec3.mk a b c).get 0 = a := rfl
@[simp] theorem Vec3.get_mk_one (a b c : α) : (Vec3.mk a b c).get 1 = b := rfl
@[simp] theorem Vec3.get_mk_two (a b c : α) : (Vec3.mk a b c).get 2 = c := rfl

@[simp] theorem Vec3.get_ofFn (f : Fin 3 → α) (i : Fin 3) : (Vec3.ofFn f).get i = f i := by
  fin_cases i <;> rfl

@[simp] theorem Vec3.get_map (f : α → β) (x : Vec3 α) (i : Fin 3) : (x.map f).get i = f (x.get i) := by
  fin_cases i <;> rfl

theorem Vec3.get_set (x : Vec3 α) (i j : Fin 3) (a : α) : (x.set i a).get j = if j = i then a else x.get j := by
  fin_cases i <;> fin_cases j <;> rfl

@[simp] theorem Vec3.get_set_self (x : Vec3 α) (i : Fin 3) (a : α) : (x.set i a).get i = a := by
  simp [Vec3.get_set]

theorem Vec3.ext_get {x y : Vec3 α} (h : ∀ i, x.get i = y.get i) : x = y := by
  obtain ⟨a, b, c⟩ := x
  obtain ⟨d, e, f⟩ := y
  obtain ⟨h0, h1, h2⟩ : a = d ∧ b = e ∧ c = f := ⟨h 0, h 1, h 2⟩
  rw [h0, h1, h2]

@[simp] theorem Mat3.row_map (f : α → β) (a : Mat3 α) (i : Fin 3) : (a.map f).row i = (a.row i).map f := by
  fin_cases i <;> rfl

@[simp] theorem Mat3.get_ofFn (f : Fin 3 → Fin 3 → α) (i j : Fin 3) : (Mat3.ofFn f).get i j = f i j := by
  fin_cases i <;> fin_cases j <;> rfl

@[simp] theorem Mat3.get_map (f : α → β) (a : Mat3 α) (i j : Fin 3) : (a.map f).get i j = f (a.get i j) := by
  simp [Mat3.get]

theorem Mat3.get_set (a : Mat3 α) (i j i' j' : Fin 3) (x : α) :
    (a.set i j x).get i' j' = if i' = i ∧ j' = j then x else a.get i' j' := by
  fin_cases i <;> fin_cases i' <;> fin_cases j <;> fin_cases j' <;> rfl

@[simp] theorem Mat3.get_set_self (a : Mat3 α) (i j : Fin 3) (x : α) : (a.set i j x).get i j = x := by
  simp [Mat3.get_set]

theorem Mat3.ext_get {a b : Mat3 α} (h : ∀ i j, a.get i j = b.get i j) : a = b := by
  have h0 := Vec3.ext_get (h 0)
  have h1 := Vec3.ext_get (h 1)
  have h2 := Vec3.ext_get (h 2)
  obtain ⟨r0, r1, r2⟩ := a
  obtain ⟨q0, q1, q2⟩ := b
  obtain ⟨e0, e1, e2⟩ : r0 = q0 ∧ r1 = q1 ∧ r2 = q2 := ⟨h0, h1, h2⟩
  rw [e0, e1, e2]

namespace Machine

theorem VFile.get_set (f : VFile) (n n' : VReg) (x : Vec3 Residue) :
    (f.set n x).get n' = if n' = n then x else f.get n' := by
  cases n <;> cases n' <;> rfl

@[simp] theorem VFile.get_set_self (f : VFile) (n : VReg) (x : Vec3 Residue) : (f.set n x).get n = x := by
  simp [VFile.get_set]

theorem VFile.get_set_ne (f : VFile) {n n' : VReg} (h : n' ≠ n) (x : Vec3 Residue) :
    (f.set n x).get n' = f.get n' := by
  simp [VFile.get_set, h]

@[simp] theorem VFile.set_get (f : VFile) (n : VReg) : f.set n (f.get n) = f := by
  cases n <;> rfl

@[simp] theorem zeroVec_get (i : Fin 3) : zeroVec.get i = 0#8 := by fin_cases i <;> rfl
@[simp] theorem zeroMat_get (i j : Fin 3) : zeroMat.get i j = 0#8 := by fin_cases i <;> fin_cases j <;> rfl
@[simp] theorem zeroVFile_get (n : VReg) : zeroVFile.get n = zeroVec := by cases n <;> rfl

end Machine

end Sys2Proof
end

