-- ==== Sys2Proof/Laws/Arith.lean ====
section
/-! SUPPORT. One lemma for each piece of arithmetic that says all of it: the value a reduced residue holds (R8, R12), when
the inverse exists and what it is (R10), and the determinant, adjugate, product and lane functions as integers mod M. -/

namespace Sys2Proof.Machine

/-! ## Residues as integers -/

theorem val_nonneg (x : Residue) : 0 ≤ val x := Int.natCast_nonneg _

theorem val_injective {x y : Residue} (h : val x = val y) : x = y :=
  BitVec.eq_of_toNat_eq (Int.ofNat.inj h)

theorem val_lt_iff {x m : Residue} : val x < val m ↔ x.toNat < m.toNat := Int.ofNat_lt

theorem val_pos {m : Residue} (hm : 2 ≤ m.toNat) : 0 < val m := by
  unfold val; omega

/-- A reduced residue holds the floor modulo of the exact integer (R8, R12). -/
theorem val_reduce {m : Residue} (hm : 2 ≤ m.toNat) (x : Int) : val (reduce m x) = x % val m := by
  have h0 := Int.emod_nonneg x (val_pos hm).ne'
  have h1 := Int.emod_lt_of_pos x (val_pos hm)
  have h2 : val m < 256 := by unfold val; omega
  unfold reduce
  generalize x % val m = y at *
  simp only [val, BitVec.toNat_ofInt]
  omega

theorem reduce_lt {m : Residue} (hm : 2 ≤ m.toNat) (x : Int) : (reduce m x).toNat < m.toNat := by
  rw [← val_lt_iff, val_reduce hm]
  exact Int.emod_lt_of_pos x (val_pos hm)

/-- Reducing a value already in range changes nothing. -/
theorem reduce_val {m x : Residue} (hm : 2 ≤ m.toNat) (hx : x.toNat < m.toNat) : reduce m (val x) = x := by
  apply val_injective
  rw [val_reduce hm]
  exact Int.emod_eq_of_lt (val_nonneg x) (val_lt_iff.2 hx)

/-- Two exact values congruent mod M are stored as the same residue. -/
theorem reduce_congr (m : Residue) {x y : Int} (h : x % val m = y % val m) : reduce m x = reduce m y := by
  simp [reduce, h]

theorem reduceWord_lt {m : Residue} (hm : 2 ≤ m.toNat) (w : Word) : (reduceWord m w).toNat < m.toNat := reduce_lt hm _

theorem val_reduceWord {m : Residue} (hm : 2 ≤ m.toNat) (w : Word) : val (reduceWord m w) = (w.toNat : Int) % val m :=
  val_reduce hm _

/-! ## The inverse (R10) -/

theorem isUnit_iff (m a : Residue) : isUnit m a = true ↔ Nat.gcd a.toNat m.toNat = 1 := by simp [isUnit]

theorem findInverse_eq_some {m a b t : Nat} (h : findInverse m a b = some t) : t < b ∧ a * t % m = 1 :=
  ⟨List.mem_range.1 (List.mem_of_find?_eq_some h), by simpa using List.find?_some h⟩

/-- With a modulus of at least 2 and a coprime operand the search finds an inverse below the modulus. -/
theorem findInverse_isSome {m a : Nat} (hm : 2 ≤ m) (h : Nat.gcd a m = 1) : ∃ t, findInverse m a m = some t := by
  obtain ⟨t, ht⟩ := Nat.exists_mul_mod_eq_one_of_coprime (Nat.coprime_iff_gcd_eq_one.2 h) hm
  rw [← Option.isSome_iff_exists, findInverse, List.find?_isSome]
  exact ⟨t, List.mem_range.2 ht.1, by simpa using ht.2⟩

/-- Where `inv_M(a)` is defined it is below M and an inverse, and a is coprime to M (R10). -/
theorem invM_eq_some {m a t : Residue} (h : invM m a = some t) :
    t.toNat < m.toNat ∧ a.toNat * t.toNat % m.toNat = 1 ∧ Nat.gcd a.toNat m.toNat = 1 := by
  unfold invM at h
  split at h
  · rename_i hu
    obtain ⟨n, hn, rfl⟩ := Option.map_eq_some_iff.1 h
    obtain ⟨hlt, hone⟩ := findInverse_eq_some hn
    have : n % 2 ^ 8 = n := Nat.mod_eq_of_lt (hlt.trans m.isLt)
    simp only [BitVec.toNat_ofNat, this]
    exact ⟨hlt, hone, (isUnit_iff m a).1 hu⟩
  · exact absurd h (by simp)

/-- `inv_M(a)` is defined when `gcd(a, M) = 1` (R10). -/
theorem invM_of_coprime {m a : Residue} (hm : 2 ≤ m.toNat) (h : Nat.gcd a.toNat m.toNat = 1) :
    ∃ t, invM m a = some t := by
  obtain ⟨t, ht⟩ := findInverse_isSome hm h
  exact ⟨BitVec.ofNat 8 t, by simp [invM, (isUnit_iff m a).2 h, ht]⟩

/-- `inv_M(a)` is not defined when `gcd(a, M) ≠ 1` (R10). -/
theorem invM_of_not_coprime {m a : Residue} (h : Nat.gcd a.toNat m.toNat ≠ 1) : invM m a = none := by
  have : isUnit m a = false := by simpa [isUnit] using h
  simp [invM, this]

/-- The inverse over the integers: `(a * t) mod M = 1` (R10). -/
theorem invM_mul_emod {m a t : Residue} (h : invM m a = some t) : val a * val t % val m = 1 := by
  have := (invM_eq_some h).2.1
  unfold val
  exact_mod_cast this

/-! ## The units as integers mod M (R140, R143, R147, R170) -/

theorem det3_map_val (a : Mat3 Residue) : det3 (a.map val) = detOf (entries a) := rfl

theorem adj3_get (a : Mat3 Residue) (i j : Fin 3) : (adj3 (a.map val)).get i j = adjOf (entries a) i j := by
  obtain ⟨⟨a, b, c⟩, ⟨d, e, f⟩, ⟨g, h, k⟩⟩ := a
  fin_cases i <;> fin_cases j <;>
    simp [adj3, adjOf, cofactorOf, minorOf, entries, Mat3.get, Mat3.row, Mat3.map, Vec3.map, Vec3.get, Fin.succAbove]

theorem val_detResidue {m : Residue} (hm : 2 ≤ m.toNat) (a : Mat3 Residue) :
    val (detResidue m a) = detOf (entries a) % val m := val_reduce hm _

theorem val_adjResidue {m : Residue} (hm : 2 ≤ m.toNat) (a : Mat3 Residue) (i j : Fin 3) :
    val ((adjResidue m a).get i j) = adjOf (entries a) i j % val m := by
  rw [adjResidue, Mat3.get_map, val_reduce hm, adj3_get]

theorem val_scaledAdj {m : Residue} (hm : 2 ≤ m.toNat) (a : Mat3 Residue) (t : Residue) (i j : Fin 3) :
    val ((scaledAdj m a t).get i j) = adjOf (entries a) i j * val t % val m := by
  rw [scaledAdj, Mat3.get_map, val_reduce hm, adj3_get]

theorem dot_map_val (a : Mat3 Residue) (x : Vec3 Residue) (i : Fin 3) :
    dot ((a.row i).map val) (x.map val) =
      entries a i 0 * val (x.get 0) + entries a i 1 * val (x.get 1) + entries a i 2 * val (x.get 2) := rfl

theorem val_mulVec {m : Residue} (hm : 2 ≤ m.toNat) (a : Mat3 Residue) (x : Vec3 Residue) (i : Fin 3) :
    val ((mulVec m a x).get i) =
      (entries a i 0 * val (x.get 0) + entries a i 1 * val (x.get 1) + entries a i 2 * val (x.get 2)) % val m := by
  rw [mulVec, Vec3.get_ofFn, val_reduce hm, dot_map_val]

/-! ## The twist (R184, R187) -/

theorem twistVec_get (m : Residue) (o : TwistOp) (sc : Residue) (x : Vec3 Residue) (l : Fin 3) :
    (twistVec m o sc x).get l = twistLane m o sc (x.get l) := Vec3.get_map _ _ _

/-- The untwist of a block is defined when its lane function is, and then lane by lane (R187, R188). -/
theorem untwistVec_eq_some {m : Residue} {o : TwistOp} {sc : Residue} {x y : Vec3 Residue} :
    untwistVec m o sc x = some y ↔ ∀ l, untwistLane m o sc (x.get l) = some (y.get l) := by
  obtain ⟨a, b, c⟩ := x
  obtain ⟨d, e, f⟩ := y
  constructor
  · intro h
    unfold untwistVec at h
    split at h
    · rename_i h0 h1 h2
      cases h
      intro l
      fin_cases l
      exacts [h0, h1, h2]
    · exact absurd h (by simp)
  · intro h
    have h0 := h 0
    have h1 := h 1
    have h2 := h 2
    simp only [Vec3.get_mk_zero, Vec3.get_mk_one, Vec3.get_mk_two] at h0 h1 h2
    simp [untwistVec, h0, h1, h2]

/-- It is undefined only for Multiply by a scalar without an inverse (R187, R188). -/
theorem untwistVec_eq_none {m : Residue} {o : TwistOp} {sc : Residue} {x : Vec3 Residue} :
    untwistVec m o sc x = none ↔ o = .mul ∧ invM m sc = none := by
  cases o
  · simp [untwistVec, untwistLane]
  · simp [untwistVec, untwistLane]
  · cases h : invM m sc <;> simp [untwistVec, untwistLane, h]

end Sys2Proof.Machine
end

