-- ==== Sys2Proof/Laws/Decode.lean ====
section
/-! SUPPORT. The fields of a word and the word of fields as numbers (R91), and the operand codes (R94 to R97). -/

namespace Sys2Proof

/-! ## Operand codes -/

@[simp] theorem MatSel.code_ofCode (b : BitVec 1) : (MatSel.ofCode b).code = b := by revert b; decide
@[simp] theorem VReg.code_ofCode (b : BitVec 2) : (VReg.ofCode b).code = b := by revert b; decide
@[simp] theorem ScalarSrc.code_ofCode (b : BitVec 2) : (ScalarSrc.ofCode b).code = b := by revert b; decide
@[simp] theorem OpSel.code_ofCode (b : BitVec 2) : (OpSel.ofCode b).code = b := by revert b; decide
@[simp] theorem MatSel.ofCode_code (m : MatSel) : MatSel.ofCode m.code = m := by cases m <;> decide
@[simp] theorem VReg.ofCode_code (n : VReg) : VReg.ofCode n.code = n := by cases n <;> decide
@[simp] theorem ScalarSrc.ofCode_code (a : ScalarSrc) : ScalarSrc.ofCode a.code = a := by cases a <;> decide
@[simp] theorem OpSel.ofCode_code (o : OpSel) : OpSel.ofCode o.code = o := by cases o <;> decide

/-- The reserved scalar is SSRC = 3 (R96). -/
theorem ScalarSrc.legal_ofCode (b : BitVec 2) : (ScalarSrc.ofCode b).legal = true ↔ b ≠ 3#2 := by revert b; decide

/-! ## Fields as numbers (R91) -/

theorem extract_toNat (w : Word) (lo len : Nat) : (w.extractLsb' lo len).toNat = w.toNat / 2 ^ lo % 2 ^ len := by
  rw [BitVec.extractLsb'_toNat, Nat.shiftRight_eq_div_pow]

theorem extract_eq_iff (w : Word) (lo len : Nat) (x : BitVec len) :
    w.extractLsb' lo len = x ↔ w.toNat / 2 ^ lo % 2 ^ len = x.toNat := by
  rw [← BitVec.toNat_inj, extract_toNat]

theorem append_toNat {m n : Nat} (x : BitVec m) (y : BitVec n) : (x ++ y).toNat = x.toNat * 2 ^ n + y.toNat := by
  rw [BitVec.toNat_append, ← Nat.shiftLeft_add_eq_or_of_lt y.isLt, Nat.shiftLeft_eq]

/-- Format C as a number. -/
theorem formatC_toNat (opc : BitVec 4) (ms : BitVec 1) (op ssrc vd vs : BitVec 2) (imm : BitVec 8) :
    (formatC opc ms op ssrc vd vs imm).toNat = opc.toNat * 2 ^ 28 + ms.toNat * 2 ^ 16 + op.toNat * 2 ^ 14
      + ssrc.toNat * 2 ^ 12 + vd.toNat * 2 ^ 10 + vs.toNat * 2 ^ 8 + imm.toNat := by
  simp only [formatC, append_toNat, BitVec.toNat_ofNat]
  omega

/-- The opcode of a word of format C. -/
theorem formatC_opc (opc : BitVec 4) (ms : BitVec 1) (op ssrc vd vs : BitVec 2) (imm : BitVec 8) :
    (formatC opc ms op ssrc vd vs imm).extractLsb' 28 4 = opc := by
  rw [extract_eq_iff, formatC_toNat]
  have := ms.isLt
  have := op.isLt
  have := ssrc.isLt
  have := vd.isLt
  have := vs.isLt
  have := imm.isLt
  have := opc.isLt
  omega

/-! ## Every word as its fields -/

/-- A word from all its fields, RSV among them. -/
def wordOf (opc : BitVec 4) (rsv : BitVec 11) (ms : BitVec 1) (op ssrc vd vs : BitVec 2) (imm : BitVec 8) : Word :=
  opc ++ rsv ++ ms ++ op ++ ssrc ++ vd ++ vs ++ imm

theorem wordOf_toNat (opc : BitVec 4) (rsv : BitVec 11) (ms : BitVec 1) (op ssrc vd vs : BitVec 2) (imm : BitVec 8) :
    (wordOf opc rsv ms op ssrc vd vs imm).toNat = opc.toNat * 2 ^ 28 + rsv.toNat * 2 ^ 17 + ms.toNat * 2 ^ 16
      + op.toNat * 2 ^ 14 + ssrc.toNat * 2 ^ 12 + vd.toNat * 2 ^ 10 + vs.toNat * 2 ^ 8 + imm.toNat := by
  simp only [wordOf, append_toNat]
  omega

/-- Every word is made of its fields (R91). -/
theorem wordOf_fields (w : Word) : wordOf (Field.opc w) (Field.rsv w) (Field.ms w) (Field.op w) (Field.ssrc w)
    (Field.vd w) (Field.vs w) (Field.imm8 w) = w := by
  apply BitVec.eq_of_toNat_eq
  rw [wordOf_toNat]
  simp only [Field.opc, Field.rsv, Field.ms, Field.op, Field.ssrc, Field.vd, Field.vs, Field.imm8, extract_toNat]
  have := w.isLt
  omega

theorem append_and_append {m n : Nat} (a a' : BitVec m) (b b' : BitVec n) :
    (a ++ b) &&& (a' ++ b') = (a &&& a') ++ (b &&& b') := by
  ext i hi
  simp only [BitVec.getElem_and, BitVec.getElem_append]
  split <;> rfl

theorem append_eq_append_iff {m n : Nat} {a a' : BitVec m} {b b' : BitVec n} :
    a ++ b = a' ++ b' ↔ a = a' ∧ b = b' := by
  refine ⟨fun h => ?_, fun ⟨ha, hb⟩ => by rw [ha, hb]⟩
  have h := congrArg BitVec.toNat h
  simp only [append_toNat] at h
  have hb : b.toNat = b'.toNat := by
    have := congrArg (· % 2 ^ n) h
    simpa [Nat.mul_comm, Nat.mul_add_mod, Nat.mod_eq_of_lt, b.isLt, b'.isLt] using this
  rw [hb] at h
  exact ⟨BitVec.eq_of_toNat_eq (Nat.eq_of_mul_eq_mul_right (Nat.two_pow_pos n) (Nat.add_right_cancel h)),
    BitVec.eq_of_toNat_eq hb⟩

/-- A mask acts field by field. -/
theorem wordOf_and (a a' : BitVec 4) (b b' : BitVec 11) (c c' : BitVec 1) (d d' e e' f f' g g' : BitVec 2)
    (h h' : BitVec 8) : wordOf a b c d e f g h &&& wordOf a' b' c' d' e' f' g' h' =
      wordOf (a &&& a') (b &&& b') (c &&& c') (d &&& d') (e &&& e') (f &&& f') (g &&& g') (h &&& h') := by
  unfold wordOf
  rw [append_and_append, append_and_append, append_and_append, append_and_append, append_and_append,
    append_and_append, append_and_append]

/-- Words are equal when their fields are. -/
theorem wordOf_eq_iff {a a' : BitVec 4} {b b' : BitVec 11} {c c' : BitVec 1} {d d' e e' f f' g g' : BitVec 2}
    {h h' : BitVec 8} : wordOf a b c d e f g h = wordOf a' b' c' d' e' f' g' h' ↔
      a = a' ∧ b = b' ∧ c = c' ∧ d = d' ∧ e = e' ∧ f = f' ∧ g = g' ∧ h = h' := by
  unfold wordOf
  rw [append_eq_append_iff, append_eq_append_iff, append_eq_append_iff, append_eq_append_iff, append_eq_append_iff,
    append_eq_append_iff, append_eq_append_iff]
  tauto

/-! ## The decoder's tests -/

theorem unusedChecked_eq_command {c : Bool} {d : Decoded} {i : Instr} :
    Decoded.unusedChecked c d = .command i ↔ c = true ∧ d = .command i := by
  cases c <;> simp [Decoded.unusedChecked]

theorem scalarChecked_eq_command {src : ScalarSrc} {i j : Instr} :
    Decoded.scalarChecked src i = .command j ↔ src.legal = true ∧ i = j := by
  cases h : src.legal <;> simp [Decoded.scalarChecked, h]

end Sys2Proof
end

