-- ==== Sys2Proof/Laws/State.lean ====
section
/-! SUPPORT. Every field of the state after every named update, one lemma each, so that no proof unfolds a record
update. -/

namespace Sys2Proof.Machine

variable (s : State)

/-! ## `setV` (R22) -/

@[simp] theorem State.setV_ctrl (n : VReg) (x : Vec3 Residue) : (s.setV n x).ctrl = s.ctrl := rfl
@[simp] theorem State.setV_status (n : VReg) (x : Vec3 Residue) : (s.setV n x).status = s.status := rfl
@[simp] theorem State.setV_pend (n : VReg) (x : Vec3 Residue) : (s.setV n x).pend = s.pend := rfl
@[simp] theorem State.setV_modulus (n : VReg) (x : Vec3 Residue) : (s.setV n x).modulus = s.modulus := rfl
@[simp] theorem State.setV_k (n : VReg) (x : Vec3 Residue) : (s.setV n x).k = s.k := rfl
@[simp] theorem State.setV_r (n : VReg) (x : Vec3 Residue) : (s.setV n x).r = s.r := rfl
@[simp] theorem State.setV_v (n : VReg) (x : Vec3 Residue) : (s.setV n x).v = s.v.set n x := rfl
@[simp] theorem State.setV_s (n : VReg) (x : Vec3 Residue) : (s.setV n x).s = s.s := rfl
@[simp] theorem State.setV_det (n : VReg) (x : Vec3 Residue) : (s.setV n x).det = s.det := rfl
@[simp] theorem State.setV_inv (n : VReg) (x : Vec3 Residue) : (s.setV n x).inv = s.inv := rfl
@[simp] theorem State.setV_pcnt (n : VReg) (x : Vec3 Residue) : (s.setV n x).pcnt = s.pcnt := rfl
@[simp] theorem State.setV_tflag (n : VReg) (x : Vec3 Residue) : (s.setV n x).tflag = s.tflag := rfl
@[simp] theorem State.setV_rstN (n : VReg) (x : Vec3 Residue) : (s.setV n x).rstN = s.rstN := rfl
@[simp] theorem State.setV_inputs (n : VReg) (x : Vec3 Residue) : (s.setV n x).inputs = s.inputs := rfl
@[simp] theorem State.setV_resp (n : VReg) (x : Vec3 Residue) : (s.setV n x).resp = s.resp := rfl
@[simp] theorem State.setV_draws (n : VReg) (x : Vec3 Residue) : (s.setV n x).draws = s.draws := rfl

/-! ## `issue` (R120) -/

@[simp] theorem State.issue_ctrl (w : Word) : (s.issue w).ctrl = s.ctrl := rfl
@[simp] theorem State.issue_status (w : Word) : (s.issue w).status = { s.status with done := false } := rfl
@[simp] theorem State.issue_pend (w : Word) : (s.issue w).pend = some w := rfl
@[simp] theorem State.issue_modulus (w : Word) : (s.issue w).modulus = s.modulus := rfl
@[simp] theorem State.issue_k (w : Word) : (s.issue w).k = s.k := rfl
@[simp] theorem State.issue_r (w : Word) : (s.issue w).r = s.r := rfl
@[simp] theorem State.issue_v (w : Word) : (s.issue w).v = s.v := rfl
@[simp] theorem State.issue_s (w : Word) : (s.issue w).s = s.s := rfl
@[simp] theorem State.issue_det (w : Word) : (s.issue w).det = s.det := rfl
@[simp] theorem State.issue_inv (w : Word) : (s.issue w).inv = s.inv := rfl
@[simp] theorem State.issue_pcnt (w : Word) : (s.issue w).pcnt = s.pcnt := rfl
@[simp] theorem State.issue_tflag (w : Word) : (s.issue w).tflag = s.tflag := rfl
@[simp] theorem State.issue_rstN (w : Word) : (s.issue w).rstN = s.rstN := rfl
@[simp] theorem State.issue_inputs (w : Word) : (s.issue w).inputs = s.inputs := rfl
@[simp] theorem State.issue_resp (w : Word) : (s.issue w).resp = s.resp := rfl
@[simp] theorem State.issue_draws (w : Word) : (s.issue w).draws = s.draws := rfl

/-! ## `raiseError` (R211, R212) -/

@[simp] theorem State.raiseError_ctrl (c : ErrCode) : (s.raiseError c).ctrl = s.ctrl := rfl
@[simp] theorem State.raiseError_status (c : ErrCode) : (s.raiseError c).status = { s.status with err := true, errcode := c } := rfl
@[simp] theorem State.raiseError_pend (c : ErrCode) : (s.raiseError c).pend = s.pend := rfl
@[simp] theorem State.raiseError_modulus (c : ErrCode) : (s.raiseError c).modulus = s.modulus := rfl
@[simp] theorem State.raiseError_k (c : ErrCode) : (s.raiseError c).k = s.k := rfl
@[simp] theorem State.raiseError_r (c : ErrCode) : (s.raiseError c).r = s.r := rfl
@[simp] theorem State.raiseError_v (c : ErrCode) : (s.raiseError c).v = s.v := rfl
@[simp] theorem State.raiseError_s (c : ErrCode) : (s.raiseError c).s = s.s := rfl
@[simp] theorem State.raiseError_det (c : ErrCode) : (s.raiseError c).det = s.det := rfl
@[simp] theorem State.raiseError_inv (c : ErrCode) : (s.raiseError c).inv = s.inv := rfl
@[simp] theorem State.raiseError_pcnt (c : ErrCode) : (s.raiseError c).pcnt = s.pcnt := rfl
@[simp] theorem State.raiseError_tflag (c : ErrCode) : (s.raiseError c).tflag = s.tflag := rfl
@[simp] theorem State.raiseError_rstN (c : ErrCode) : (s.raiseError c).rstN = s.rstN := rfl
@[simp] theorem State.raiseError_inputs (c : ErrCode) : (s.raiseError c).inputs = s.inputs := rfl
@[simp] theorem State.raiseError_resp (c : ErrCode) : (s.raiseError c).resp = s.resp := rfl
@[simp] theorem State.raiseError_draws (c : ErrCode) : (s.raiseError c).draws = s.draws := rfl

/-! ## `clearError` (R26) -/

@[simp] theorem State.clearError_ctrl : s.clearError.ctrl = s.ctrl := rfl
@[simp] theorem State.clearError_status : s.clearError.status = { s.status with err := false, errcode := .none } := rfl
@[simp] theorem State.clearError_pend : s.clearError.pend = s.pend := rfl
@[simp] theorem State.clearError_modulus : s.clearError.modulus = s.modulus := rfl
@[simp] theorem State.clearError_k : s.clearError.k = s.k := rfl
@[simp] theorem State.clearError_r : s.clearError.r = s.r := rfl
@[simp] theorem State.clearError_v : s.clearError.v = s.v := rfl
@[simp] theorem State.clearError_s : s.clearError.s = s.s := rfl
@[simp] theorem State.clearError_det : s.clearError.det = s.det := rfl
@[simp] theorem State.clearError_inv : s.clearError.inv = s.inv := rfl
@[simp] theorem State.clearError_pcnt : s.clearError.pcnt = s.pcnt := rfl
@[simp] theorem State.clearError_tflag : s.clearError.tflag = s.tflag := rfl
@[simp] theorem State.clearError_rstN : s.clearError.rstN = s.rstN := rfl
@[simp] theorem State.clearError_inputs : s.clearError.inputs = s.inputs := rfl
@[simp] theorem State.clearError_resp : s.clearError.resp = s.resp := rfl
@[simp] theorem State.clearError_draws : s.clearError.draws = s.draws := rfl

/-! ## `clearDone` (R26) -/

@[simp] theorem State.clearDone_ctrl : s.clearDone.ctrl = s.ctrl := rfl
@[simp] theorem State.clearDone_status : s.clearDone.status = { s.status with done := false } := rfl
@[simp] theorem State.clearDone_pend : s.clearDone.pend = s.pend := rfl
@[simp] theorem State.clearDone_modulus : s.clearDone.modulus = s.modulus := rfl
@[simp] theorem State.clearDone_k : s.clearDone.k = s.k := rfl
@[simp] theorem State.clearDone_r : s.clearDone.r = s.r := rfl
@[simp] theorem State.clearDone_v : s.clearDone.v = s.v := rfl
@[simp] theorem State.clearDone_s : s.clearDone.s = s.s := rfl
@[simp] theorem State.clearDone_det : s.clearDone.det = s.det := rfl
@[simp] theorem State.clearDone_inv : s.clearDone.inv = s.inv := rfl
@[simp] theorem State.clearDone_pcnt : s.clearDone.pcnt = s.pcnt := rfl
@[simp] theorem State.clearDone_tflag : s.clearDone.tflag = s.tflag := rfl
@[simp] theorem State.clearDone_rstN : s.clearDone.rstN = s.rstN := rfl
@[simp] theorem State.clearDone_inputs : s.clearDone.inputs = s.inputs := rfl
@[simp] theorem State.clearDone_resp : s.clearDone.resp = s.resp := rfl
@[simp] theorem State.clearDone_draws : s.clearDone.draws = s.draws := rfl

/-! ## `finish` (R121) -/

@[simp] theorem State.finish_ctrl : s.finish.ctrl = s.ctrl := rfl
@[simp] theorem State.finish_status : s.finish.status = { s.status with done := true } := rfl
@[simp] theorem State.finish_pend : s.finish.pend = none := rfl
@[simp] theorem State.finish_modulus : s.finish.modulus = s.modulus := rfl
@[simp] theorem State.finish_k : s.finish.k = s.k := rfl
@[simp] theorem State.finish_r : s.finish.r = s.r := rfl
@[simp] theorem State.finish_v : s.finish.v = s.v := rfl
@[simp] theorem State.finish_s : s.finish.s = s.s := rfl
@[simp] theorem State.finish_det : s.finish.det = s.det := rfl
@[simp] theorem State.finish_inv : s.finish.inv = s.inv := rfl
@[simp] theorem State.finish_pcnt : s.finish.pcnt = s.pcnt := rfl
@[simp] theorem State.finish_tflag : s.finish.tflag = s.tflag := rfl
@[simp] theorem State.finish_rstN : s.finish.rstN = s.rstN := rfl
@[simp] theorem State.finish_inputs : s.finish.inputs = s.inputs := rfl
@[simp] theorem State.finish_resp : s.finish.resp = s.resp := rfl
@[simp] theorem State.finish_draws : s.finish.draws = s.draws := rfl

/-! ## `toReset` (R240, R241) -/

@[simp] theorem State.toReset_ctrl : s.toReset.ctrl = State.reset.ctrl := rfl
@[simp] theorem State.toReset_status : s.toReset.status = State.reset.status := rfl
@[simp] theorem State.toReset_pend : s.toReset.pend = State.reset.pend := rfl
@[simp] theorem State.toReset_modulus : s.toReset.modulus = State.reset.modulus := rfl
@[simp] theorem State.toReset_k : s.toReset.k = State.reset.k := rfl
@[simp] theorem State.toReset_r : s.toReset.r = State.reset.r := rfl
@[simp] theorem State.toReset_v : s.toReset.v = State.reset.v := rfl
@[simp] theorem State.toReset_s : s.toReset.s = State.reset.s := rfl
@[simp] theorem State.toReset_det : s.toReset.det = State.reset.det := rfl
@[simp] theorem State.toReset_inv : s.toReset.inv = State.reset.inv := rfl
@[simp] theorem State.toReset_pcnt : s.toReset.pcnt = State.reset.pcnt := rfl
@[simp] theorem State.toReset_tflag : s.toReset.tflag = State.reset.tflag := rfl
@[simp] theorem State.toReset_rstN : s.toReset.rstN = s.rstN := rfl
@[simp] theorem State.toReset_inputs : s.toReset.inputs = s.inputs := rfl
@[simp] theorem State.toReset_resp : s.toReset.resp = s.resp := rfl
@[simp] theorem State.toReset_draws : s.toReset.draws = s.draws := rfl

/-! ## `setModulus` (R124) -/

@[simp] theorem State.setModulus_ctrl (m : Residue) : (s.setModulus m).ctrl = s.ctrl := rfl
@[simp] theorem State.setModulus_status (m : Residue) : (s.setModulus m).status = { s.status with cop := false, siv := false, miv := false } := rfl
@[simp] theorem State.setModulus_pend (m : Residue) : (s.setModulus m).pend = s.pend := rfl
@[simp] theorem State.setModulus_modulus (m : Residue) : (s.setModulus m).modulus = m := rfl
@[simp] theorem State.setModulus_k (m : Residue) : (s.setModulus m).k = zeroMat := rfl
@[simp] theorem State.setModulus_r (m : Residue) : (s.setModulus m).r = zeroMat := rfl
@[simp] theorem State.setModulus_v (m : Residue) : (s.setModulus m).v = zeroVFile := rfl
@[simp] theorem State.setModulus_s (m : Residue) : (s.setModulus m).s = 0#8 := rfl
@[simp] theorem State.setModulus_det (m : Residue) : (s.setModulus m).det = 0#8 := rfl
@[simp] theorem State.setModulus_inv (m : Residue) : (s.setModulus m).inv = 0#8 := rfl
@[simp] theorem State.setModulus_pcnt (m : Residue) : (s.setModulus m).pcnt = 0#2 := rfl
@[simp] theorem State.setModulus_tflag (m : Residue) : (s.setModulus m).tflag = 0#2 := rfl
@[simp] theorem State.setModulus_rstN (m : Residue) : (s.setModulus m).rstN = s.rstN := rfl
@[simp] theorem State.setModulus_inputs (m : Residue) : (s.setModulus m).inputs = s.inputs := rfl
@[simp] theorem State.setModulus_resp (m : Residue) : (s.setModulus m).resp = s.resp := rfl
@[simp] theorem State.setModulus_draws (m : Residue) : (s.setModulus m).draws = s.draws := rfl

/-! ## `respond` (R61) -/

@[simp] theorem State.respond_ctrl (a : BusResponse) : (s.respond a).ctrl = s.ctrl := rfl
@[simp] theorem State.respond_status (a : BusResponse) : (s.respond a).status = s.status := rfl
@[simp] theorem State.respond_pend (a : BusResponse) : (s.respond a).pend = s.pend := rfl
@[simp] theorem State.respond_modulus (a : BusResponse) : (s.respond a).modulus = s.modulus := rfl
@[simp] theorem State.respond_k (a : BusResponse) : (s.respond a).k = s.k := rfl
@[simp] theorem State.respond_r (a : BusResponse) : (s.respond a).r = s.r := rfl
@[simp] theorem State.respond_v (a : BusResponse) : (s.respond a).v = s.v := rfl
@[simp] theorem State.respond_s (a : BusResponse) : (s.respond a).s = s.s := rfl
@[simp] theorem State.respond_det (a : BusResponse) : (s.respond a).det = s.det := rfl
@[simp] theorem State.respond_inv (a : BusResponse) : (s.respond a).inv = s.inv := rfl
@[simp] theorem State.respond_pcnt (a : BusResponse) : (s.respond a).pcnt = s.pcnt := rfl
@[simp] theorem State.respond_tflag (a : BusResponse) : (s.respond a).tflag = s.tflag := rfl
@[simp] theorem State.respond_rstN (a : BusResponse) : (s.respond a).rstN = s.rstN := rfl
@[simp] theorem State.respond_inputs (a : BusResponse) : (s.respond a).inputs = s.inputs := rfl
@[simp] theorem State.respond_resp (a : BusResponse) : (s.respond a).resp = some a := rfl
@[simp] theorem State.respond_draws (a : BusResponse) : (s.respond a).draws = s.draws + 1 := rfl

/-! ## `setDet` (R141) -/

@[simp] theorem State.setDet_ctrl (d : Residue) (b : Bool) : (s.setDet d b).ctrl = s.ctrl := rfl
@[simp] theorem State.setDet_status (d : Residue) (b : Bool) : (s.setDet d b).status = { s.status with cop := b } := rfl
@[simp] theorem State.setDet_pend (d : Residue) (b : Bool) : (s.setDet d b).pend = s.pend := rfl
@[simp] theorem State.setDet_modulus (d : Residue) (b : Bool) : (s.setDet d b).modulus = s.modulus := rfl
@[simp] theorem State.setDet_k (d : Residue) (b : Bool) : (s.setDet d b).k = s.k := rfl
@[simp] theorem State.setDet_r (d : Residue) (b : Bool) : (s.setDet d b).r = s.r := rfl
@[simp] theorem State.setDet_v (d : Residue) (b : Bool) : (s.setDet d b).v = s.v := rfl
@[simp] theorem State.setDet_s (d : Residue) (b : Bool) : (s.setDet d b).s = s.s := rfl
@[simp] theorem State.setDet_det (d : Residue) (b : Bool) : (s.setDet d b).det = d := rfl
@[simp] theorem State.setDet_inv (d : Residue) (b : Bool) : (s.setDet d b).inv = s.inv := rfl
@[simp] theorem State.setDet_pcnt (d : Residue) (b : Bool) : (s.setDet d b).pcnt = s.pcnt := rfl
@[simp] theorem State.setDet_tflag (d : Residue) (b : Bool) : (s.setDet d b).tflag = s.tflag := rfl
@[simp] theorem State.setDet_rstN (d : Residue) (b : Bool) : (s.setDet d b).rstN = s.rstN := rfl
@[simp] theorem State.setDet_inputs (d : Residue) (b : Bool) : (s.setDet d b).inputs = s.inputs := rfl
@[simp] theorem State.setDet_resp (d : Residue) (b : Bool) : (s.setDet d b).resp = s.resp := rfl
@[simp] theorem State.setDet_draws (d : Residue) (b : Bool) : (s.setDet d b).draws = s.draws := rfl

/-! ## `setMiv` (R147) -/

@[simp] theorem State.setMiv_ctrl (b : Bool) : (s.setMiv b).ctrl = s.ctrl := rfl
@[simp] theorem State.setMiv_status (b : Bool) : (s.setMiv b).status = { s.status with miv := b } := rfl
@[simp] theorem State.setMiv_pend (b : Bool) : (s.setMiv b).pend = s.pend := rfl
@[simp] theorem State.setMiv_modulus (b : Bool) : (s.setMiv b).modulus = s.modulus := rfl
@[simp] theorem State.setMiv_k (b : Bool) : (s.setMiv b).k = s.k := rfl
@[simp] theorem State.setMiv_r (b : Bool) : (s.setMiv b).r = s.r := rfl
@[simp] theorem State.setMiv_v (b : Bool) : (s.setMiv b).v = s.v := rfl
@[simp] theorem State.setMiv_s (b : Bool) : (s.setMiv b).s = s.s := rfl
@[simp] theorem State.setMiv_det (b : Bool) : (s.setMiv b).det = s.det := rfl
@[simp] theorem State.setMiv_inv (b : Bool) : (s.setMiv b).inv = s.inv := rfl
@[simp] theorem State.setMiv_pcnt (b : Bool) : (s.setMiv b).pcnt = s.pcnt := rfl
@[simp] theorem State.setMiv_tflag (b : Bool) : (s.setMiv b).tflag = s.tflag := rfl
@[simp] theorem State.setMiv_rstN (b : Bool) : (s.setMiv b).rstN = s.rstN := rfl
@[simp] theorem State.setMiv_inputs (b : Bool) : (s.setMiv b).inputs = s.inputs := rfl
@[simp] theorem State.setMiv_resp (b : Bool) : (s.setMiv b).resp = s.resp := rfl
@[simp] theorem State.setMiv_draws (b : Bool) : (s.setMiv b).draws = s.draws := rfl

/-! ## `setSiv` (R151) -/

@[simp] theorem State.setSiv_ctrl (b : Bool) : (s.setSiv b).ctrl = s.ctrl := rfl
@[simp] theorem State.setSiv_status (b : Bool) : (s.setSiv b).status = { s.status with siv := b } := rfl
@[simp] theorem State.setSiv_pend (b : Bool) : (s.setSiv b).pend = s.pend := rfl
@[simp] theorem State.setSiv_modulus (b : Bool) : (s.setSiv b).modulus = s.modulus := rfl
@[simp] theorem State.setSiv_k (b : Bool) : (s.setSiv b).k = s.k := rfl
@[simp] theorem State.setSiv_r (b : Bool) : (s.setSiv b).r = s.r := rfl
@[simp] theorem State.setSiv_v (b : Bool) : (s.setSiv b).v = s.v := rfl
@[simp] theorem State.setSiv_s (b : Bool) : (s.setSiv b).s = s.s := rfl
@[simp] theorem State.setSiv_det (b : Bool) : (s.setSiv b).det = s.det := rfl
@[simp] theorem State.setSiv_inv (b : Bool) : (s.setSiv b).inv = s.inv := rfl
@[simp] theorem State.setSiv_pcnt (b : Bool) : (s.setSiv b).pcnt = s.pcnt := rfl
@[simp] theorem State.setSiv_tflag (b : Bool) : (s.setSiv b).tflag = s.tflag := rfl
@[simp] theorem State.setSiv_rstN (b : Bool) : (s.setSiv b).rstN = s.rstN := rfl
@[simp] theorem State.setSiv_inputs (b : Bool) : (s.setSiv b).inputs = s.inputs := rfl
@[simp] theorem State.setSiv_resp (b : Bool) : (s.setSiv b).resp = s.resp := rfl
@[simp] theorem State.setSiv_draws (b : Bool) : (s.setSiv b).draws = s.draws := rfl

/-! ## `setParity` (R181) -/

@[simp] theorem State.setParity_ctrl (n : Nat) : (s.setParity n).ctrl = s.ctrl := rfl
@[simp] theorem State.setParity_status (n : Nat) : (s.setParity n).status = s.status := rfl
@[simp] theorem State.setParity_pend (n : Nat) : (s.setParity n).pend = s.pend := rfl
@[simp] theorem State.setParity_modulus (n : Nat) : (s.setParity n).modulus = s.modulus := rfl
@[simp] theorem State.setParity_k (n : Nat) : (s.setParity n).k = s.k := rfl
@[simp] theorem State.setParity_r (n : Nat) : (s.setParity n).r = s.r := rfl
@[simp] theorem State.setParity_v (n : Nat) : (s.setParity n).v = s.v := rfl
@[simp] theorem State.setParity_s (n : Nat) : (s.setParity n).s = s.s := rfl
@[simp] theorem State.setParity_det (n : Nat) : (s.setParity n).det = s.det := rfl
@[simp] theorem State.setParity_inv (n : Nat) : (s.setParity n).inv = s.inv := rfl
@[simp] theorem State.setParity_pcnt (n : Nat) : (s.setParity n).pcnt = BitVec.ofNat 2 n := rfl
@[simp] theorem State.setParity_tflag (n : Nat) : (s.setParity n).tflag = classify n := rfl
@[simp] theorem State.setParity_rstN (n : Nat) : (s.setParity n).rstN = s.rstN := rfl
@[simp] theorem State.setParity_inputs (n : Nat) : (s.setParity n).inputs = s.inputs := rfl
@[simp] theorem State.setParity_resp (n : Nat) : (s.setParity n).resp = s.resp := rfl
@[simp] theorem State.setParity_draws (n : Nat) : (s.setParity n).draws = s.draws := rfl

/-! ## `popped` -/

@[simp] theorem State.popped_ctrl : s.popped.ctrl = s.ctrl := rfl
@[simp] theorem State.popped_status : s.popped.status = s.status := rfl
@[simp] theorem State.popped_pend : s.popped.pend = s.pend := rfl
@[simp] theorem State.popped_modulus : s.popped.modulus = s.modulus := rfl
@[simp] theorem State.popped_k : s.popped.k = s.k := rfl
@[simp] theorem State.popped_r : s.popped.r = s.r := rfl
@[simp] theorem State.popped_v : s.popped.v = s.v := rfl
@[simp] theorem State.popped_s : s.popped.s = s.s := rfl
@[simp] theorem State.popped_det : s.popped.det = s.det := rfl
@[simp] theorem State.popped_inv : s.popped.inv = s.inv := rfl
@[simp] theorem State.popped_pcnt : s.popped.pcnt = s.pcnt := rfl
@[simp] theorem State.popped_tflag : s.popped.tflag = s.tflag := rfl
@[simp] theorem State.popped_rstN : s.popped.rstN = s.rstN := rfl
@[simp] theorem State.popped_inputs : s.popped.inputs = s.inputs.tail := rfl
@[simp] theorem State.popped_resp : s.popped.resp = s.resp := rfl
@[simp] theorem State.popped_draws : s.popped.draws = s.draws := rfl

/-! ## `pending` (log 11) -/

@[simp] theorem State.pending_ctrl (w : Word) : (s.pending w).ctrl = s.ctrl := rfl
@[simp] theorem State.pending_status (w : Word) : (s.pending w).status = s.status := rfl
@[simp] theorem State.pending_pend (w : Word) : (s.pending w).pend = some w := rfl
@[simp] theorem State.pending_modulus (w : Word) : (s.pending w).modulus = s.modulus := rfl
@[simp] theorem State.pending_k (w : Word) : (s.pending w).k = s.k := rfl
@[simp] theorem State.pending_r (w : Word) : (s.pending w).r = s.r := rfl
@[simp] theorem State.pending_v (w : Word) : (s.pending w).v = s.v := rfl
@[simp] theorem State.pending_s (w : Word) : (s.pending w).s = s.s := rfl
@[simp] theorem State.pending_det (w : Word) : (s.pending w).det = s.det := rfl
@[simp] theorem State.pending_inv (w : Word) : (s.pending w).inv = s.inv := rfl
@[simp] theorem State.pending_pcnt (w : Word) : (s.pending w).pcnt = s.pcnt := rfl
@[simp] theorem State.pending_tflag (w : Word) : (s.pending w).tflag = s.tflag := rfl
@[simp] theorem State.pending_rstN (w : Word) : (s.pending w).rstN = true := rfl
@[simp] theorem State.pending_inputs (w : Word) : (s.pending w).inputs = .engine :: s.inputs := rfl
@[simp] theorem State.pending_resp (w : Word) : (s.pending w).resp = s.resp := rfl
@[simp] theorem State.pending_draws (w : Word) : (s.pending w).draws = s.draws := rfl

/-! ## `failed` (R211) -/

@[simp] theorem State.failed_ctrl (c : ErrCode) : (s.failed c).ctrl = s.ctrl := rfl
@[simp] theorem State.failed_status (c : ErrCode) : (s.failed c).status = { s.status with err := true, errcode := c, done := true } := rfl
@[simp] theorem State.failed_pend (c : ErrCode) : (s.failed c).pend = none := rfl
@[simp] theorem State.failed_modulus (c : ErrCode) : (s.failed c).modulus = s.modulus := rfl
@[simp] theorem State.failed_k (c : ErrCode) : (s.failed c).k = s.k := rfl
@[simp] theorem State.failed_r (c : ErrCode) : (s.failed c).r = s.r := rfl
@[simp] theorem State.failed_v (c : ErrCode) : (s.failed c).v = s.v := rfl
@[simp] theorem State.failed_s (c : ErrCode) : (s.failed c).s = s.s := rfl
@[simp] theorem State.failed_det (c : ErrCode) : (s.failed c).det = s.det := rfl
@[simp] theorem State.failed_inv (c : ErrCode) : (s.failed c).inv = s.inv := rfl
@[simp] theorem State.failed_pcnt (c : ErrCode) : (s.failed c).pcnt = s.pcnt := rfl
@[simp] theorem State.failed_tflag (c : ErrCode) : (s.failed c).tflag = s.tflag := rfl
@[simp] theorem State.failed_rstN (c : ErrCode) : (s.failed c).rstN = s.rstN := rfl
@[simp] theorem State.failed_inputs (c : ErrCode) : (s.failed c).inputs = s.inputs := rfl
@[simp] theorem State.failed_resp (c : ErrCode) : (s.failed c).resp = s.resp := rfl
@[simp] theorem State.failed_draws (c : ErrCode) : (s.failed c).draws = s.draws := rfl

/-! ## `reset` (R38) -/

@[simp] theorem State.reset_ctrl : State.reset.ctrl = ⟨false, false⟩ := rfl
@[simp] theorem State.reset_status : State.reset.status = ⟨false, false, false, false, false, .none⟩ := rfl
@[simp] theorem State.reset_pend : State.reset.pend = none := rfl
@[simp] theorem State.reset_modulus : State.reset.modulus = 36#8 := rfl
@[simp] theorem State.reset_k : State.reset.k = zeroMat := rfl
@[simp] theorem State.reset_r : State.reset.r = zeroMat := rfl
@[simp] theorem State.reset_v : State.reset.v = zeroVFile := rfl
@[simp] theorem State.reset_s : State.reset.s = 0#8 := rfl
@[simp] theorem State.reset_det : State.reset.det = 0#8 := rfl
@[simp] theorem State.reset_inv : State.reset.inv = 0#8 := rfl
@[simp] theorem State.reset_pcnt : State.reset.pcnt = 0#2 := rfl
@[simp] theorem State.reset_tflag : State.reset.tflag = 0#2 := rfl
@[simp] theorem State.reset_rstN : State.reset.rstN = true := rfl
@[simp] theorem State.reset_inputs : State.reset.inputs = [] := rfl
@[simp] theorem State.reset_resp : State.reset.resp = none := rfl
@[simp] theorem State.reset_draws : State.reset.draws = 0 := rfl

end Sys2Proof.Machine
end

