-- ==== Sys2Proof/Laws/Exec.lean ====
section
/-! SUPPORT. What each command does, once: for every case of a command the next state it answers, under what the case
asks of the state and the operands. Every command answers a next state. -/

namespace Sys2Proof.Machine

theorem completeOk_eq (s : State) : completeOk s = .next s.finish := rfl

theorem completeErr_eq (c : ErrCode) (s : State) : completeErr c s = .next (s.failed c) := rfl

/-! ## Operands -/

theorem scalar_ne_none {s : State} {src : ScalarSrc} : s.scalar src = none ↔ src = .reserved := by
  cases src <;> simp [State.scalar]

theorem scalar_of_legal (s : State) {src : ScalarSrc} (h : src ≠ .reserved) : ∃ a, s.scalar src = some a := by
  cases src <;> simp [State.scalar] at h ⊢

theorem effOp_eq_none {op : OpSel} {f : BitVec 2} : effOp op f = none ↔ noFlag op f := by
  revert f; cases op <;> decide

theorem effOp_eq_some {op : OpSel} {f : BitVec 2} {o : TwistOp} : effOp op f = some o ↔ namesOp op f o := by
  cases o <;> cases op <;> simp [effOp, flagOp, namesOp] <;> revert f <;> decide

theorem multiplies_iff {op : OpSel} {f : BitVec 2} : multiplies op f ↔ effOp op f = some .mul := by
  rw [effOp_eq_some]; rfl

/-! ## The commands -/

theorem exec_nop (s : State) : exec .nop s = .next s.finish := rfl

theorem exec_setmod_low {m : BitVec 8} (h : m.toNat < 2) (s : State) : exec (.setmod m) s = .next (s.failed .badMod) := by
  simp [exec, execSetmod, h, completeErr_eq]

theorem exec_setmod_legal {m : BitVec 8} (h : 2 ≤ m.toNat) (s : State) :
    exec (.setmod m) s = .next (s.setModulus m).finish := by
  simp [exec, execSetmod, Nat.not_lt.2 h, completeOk_eq]

theorem exec_det (m : MatSel) (s : State) :
    exec (.det m) s = .next (s.setDet (detResidue s.modulus (s.matrix m))
      (copOf s.modulus (detResidue s.modulus (s.matrix m)))).finish := rfl

theorem exec_adj (m : MatSel) (s : State) :
    exec (.adj m) s = .next ({ s with r := adjResidue s.modulus (s.matrix m) } : State).finish := rfl

theorem exec_minv_none {m : MatSel} {s : State} (h : invM s.modulus (detResidue s.modulus (s.matrix m)) = none) :
    exec (.minv m) s = .next ((s.setDet (detResidue s.modulus (s.matrix m)) false).setMiv false).finish := by
  simp [exec, execMinv, h, completeOk_eq]

theorem exec_minv_some {m : MatSel} {s : State} {t : Residue}
    (h : invM s.modulus (detResidue s.modulus (s.matrix m)) = some t) :
    exec (.minv m) s = .next ({ (s.setDet (detResidue s.modulus (s.matrix m)) true).setMiv true with
      r := scaledAdj s.modulus (s.matrix m) t } : State).finish := by
  simp [exec, execMinv, h, completeOk_eq]

theorem exec_sinv_reserved (s : State) : exec (.sinv .reserved) s = .next (s.failed .illegal) := rfl

theorem exec_sinv_none {src : ScalarSrc} {s : State} {a : Residue} (ha : s.scalar src = some a)
    (h : invM s.modulus a = none) : exec (.sinv src) s = .next (s.setSiv false).finish := by
  simp [exec, execSinv, ha, h, completeOk_eq]

theorem exec_sinv_some {src : ScalarSrc} {s : State} {a t : Residue} (ha : s.scalar src = some a)
    (h : invM s.modulus a = some t) : exec (.sinv src) s = .next ({ s.setSiv true with inv := t } : State).finish := by
  simp [exec, execSinv, ha, h, completeOk_eq]

theorem exec_matvec (vd vs : VReg) (m : MatSel) (s : State) :
    exec (.matvec vd m vs) s = .next (s.setV vd (mulVec s.modulus (s.matrix m) (s.v.get vs))).finish := rfl

theorem exec_parity (vs : VReg) (s : State) :
    exec (.parity vs) s = .next (s.setParity (evenCount (s.v.get vs))).finish := rfl

theorem exec_twist_reserved (vd vs : VReg) (op : OpSel) (s : State) :
    exec (.twist vd vs op .reserved) s = .next (s.failed .illegal) := rfl

theorem exec_twist_noFlag {vd vs : VReg} {op : OpSel} {src : ScalarSrc} {s : State} (hs : src ≠ .reserved)
    (h : noFlag op s.tflag) : exec (.twist vd vs op src) s = .next (s.failed .badFlag) := by
  obtain ⟨a, ha⟩ := scalar_of_legal s hs
  simp [exec, execTwist, ha, effOp_eq_none.2 h, completeErr_eq]

theorem exec_twist_ok {vd vs : VReg} {op : OpSel} {src : ScalarSrc} {s : State} {a : Residue} {o : TwistOp}
    (ha : s.scalar src = some a) (ho : effOp op s.tflag = some o) :
    exec (.twist vd vs op src) s = .next (s.setV vd (twistVec s.modulus o a (s.v.get vs))).finish := by
  simp [exec, execTwist, ha, ho, completeOk_eq]

theorem exec_untwist_reserved (vd vs : VReg) (op : OpSel) (s : State) :
    exec (.untwist vd vs op .reserved) s = .next (s.failed .illegal) := rfl

theorem exec_untwist_noFlag {vd vs : VReg} {op : OpSel} {src : ScalarSrc} {s : State} (hs : src ≠ .reserved)
    (h : noFlag op s.tflag) : exec (.untwist vd vs op src) s = .next (s.failed .badFlag) := by
  obtain ⟨a, ha⟩ := scalar_of_legal s hs
  simp [exec, execUntwist, ha, effOp_eq_none.2 h, completeErr_eq]

theorem exec_untwist_noninv {vd vs : VReg} {op : OpSel} {src : ScalarSrc} {s : State} {a : Residue}
    (ha : s.scalar src = some a) (ho : effOp op s.tflag = some .mul) (h : invM s.modulus a = none) :
    exec (.untwist vd vs op src) s = .next (s.failed .noninvDet) := by
  simp [exec, execUntwist, ha, ho, untwistVec_eq_none.2 ⟨rfl, h⟩, completeErr_eq]

theorem exec_untwist_ok {vd vs : VReg} {op : OpSel} {src : ScalarSrc} {s : State} {a : Residue} {o : TwistOp}
    {x : Vec3 Residue} (ha : s.scalar src = some a) (ho : effOp op s.tflag = some o)
    (hx : untwistVec s.modulus o a (s.v.get vs) = some x) :
    exec (.untwist vd vs op src) s = .next (s.setV vd x).finish := by
  simp [exec, execUntwist, ha, ho, hx, completeOk_eq]

/-! ## All commands at once -/

/-- The commands that R210 names a failure for: SETMOD, UNTWIST and TWIST, and SINV for its reserved code. -/
def canFail : Instr → Bool
  | .nop => false
  | .setmod _ => true
  | .det _ => false
  | .adj _ => false
  | .minv _ => false
  | .sinv _ => true
  | .matvec _ _ _ => false
  | .parity _ => false
  | .twist _ _ _ _ => true
  | .untwist _ _ _ _ => true

/-- SSRC names a unit exactly when the scalar it names is one. -/
theorem scalarUnit_iff {s : State} {src : ScalarSrc} {a : Residue} (h : s.scalar src = some a) :
    s.scalarUnit src ↔ isUnit s.modulus a = true := by
  cases src <;> simp [State.scalar] at h <;> subst h <;> simp [State.scalarUnit, isUnit]

/-- What a command may leave behind (R121): it failed and STATUS alone changed, or it made the writes of its rule. -/
inductive Completes : Instr → State → State → Prop
  | failed (i : Instr) (s : State) (c : ErrCode) (h : c ≠ .none) (hb : c ≠ .busyWrite) (hi : canFail i = true)
      (hf : s.modLegal → commandFails i s c) : Completes i s (s.failed c)
  | nop (s : State) : Completes .nop s s.finish
  | setmod (s : State) (m : BitVec 8) (h : 2 ≤ m.toNat) : Completes (.setmod m) s (s.setModulus m).finish
  | det (s : State) (m : MatSel) (b : Bool) : Completes (.det m) s (s.setDet (detResidue s.modulus (s.matrix m)) b).finish
  | adj (s : State) (m : MatSel) :
      Completes (.adj m) s ({ s with r := adjResidue s.modulus (s.matrix m) } : State).finish
  | minvNone (s : State) (m : MatSel) :
      Completes (.minv m) s ((s.setDet (detResidue s.modulus (s.matrix m)) false).setMiv false).finish
  | minvSome (s : State) (m : MatSel) (t : Residue) :
      Completes (.minv m) s ({ (s.setDet (detResidue s.modulus (s.matrix m)) true).setMiv true with
        r := scaledAdj s.modulus (s.matrix m) t } : State).finish
  | sinvNone (s : State) (src : ScalarSrc) : Completes (.sinv src) s (s.setSiv false).finish
  | sinvSome (s : State) (src : ScalarSrc) (a t : Residue) (h : invM s.modulus a = some t) :
      Completes (.sinv src) s ({ s.setSiv true with inv := t } : State).finish
  | matvec (s : State) (vd vs : VReg) (m : MatSel) :
      Completes (.matvec vd m vs) s (s.setV vd (mulVec s.modulus (s.matrix m) (s.v.get vs))).finish
  | parity (s : State) (vs : VReg) : Completes (.parity vs) s (s.setParity (evenCount (s.v.get vs))).finish
  | twist (s : State) (vd vs : VReg) (op : OpSel) (src : ScalarSrc) (o : TwistOp) (a : Residue) :
      Completes (.twist vd vs op src) s (s.setV vd (twistVec s.modulus o a (s.v.get vs))).finish
  | untwist (s : State) (vd vs : VReg) (op : OpSel) (src : ScalarSrc) (o : TwistOp) (a : Residue) (x : Vec3 Residue)
      (h : untwistVec s.modulus o a (s.v.get vs) = some x) : Completes (.untwist vd vs op src) s (s.setV vd x).finish

/-- Every command answers a next state, one of these. -/
theorem exec_completes (i : Instr) (s : State) : ∃ t, exec i s = .next t ∧ Completes i s t := by
  cases i with
  | nop => exact ⟨_, exec_nop s, .nop s⟩
  | setmod m =>
    by_cases h : m.toNat < 2
    · exact ⟨_, exec_setmod_low h s, .failed _ s _ (by decide) (by decide) rfl (fun _ => ⟨rfl, h⟩)⟩
    · exact ⟨_, exec_setmod_legal (Nat.not_lt.1 h) s, .setmod s m (Nat.not_lt.1 h)⟩
  | det m => exact ⟨_, exec_det m s, .det s m _⟩
  | adj m => exact ⟨_, exec_adj m s, .adj s m⟩
  | minv m =>
    cases h : invM s.modulus (detResidue s.modulus (s.matrix m)) with
    | none => exact ⟨_, exec_minv_none h, .minvNone s m⟩
    | some t => exact ⟨_, exec_minv_some h, .minvSome s m t⟩
  | sinv src =>
    cases ha : s.scalar src with
    | none =>
      cases scalar_ne_none.1 ha
      exact ⟨_, exec_sinv_reserved s, .failed _ s _ (by decide) (by decide) rfl (fun _ => ⟨rfl, rfl⟩)⟩
    | some a =>
      cases h : invM s.modulus a with
      | none => exact ⟨_, exec_sinv_none ha h, .sinvNone s src⟩
      | some t => exact ⟨_, exec_sinv_some ha h, .sinvSome s src a t h⟩
  | matvec vd m vs => exact ⟨_, exec_matvec vd vs m s, .matvec s vd vs m⟩
  | parity vs => exact ⟨_, exec_parity vs s, .parity s vs⟩
  | twist vd vs op src =>
    cases ha : s.scalar src with
    | none =>
      cases scalar_ne_none.1 ha
      exact ⟨_, exec_twist_reserved vd vs op s, .failed _ s _ (by decide) (by decide) rfl (fun _ => .inl ⟨rfl, rfl⟩)⟩
    | some a =>
      cases ho : effOp op s.tflag with
      | none =>
        have hs : src ≠ .reserved := fun h => by simp [scalar_ne_none.2 h] at ha
        exact ⟨_, exec_twist_noFlag hs (effOp_eq_none.1 ho), .failed _ s _ (by decide) (by decide) rfl (fun _ => .inr ⟨rfl, hs, effOp_eq_none.1 ho⟩)⟩
      | some o => exact ⟨_, exec_twist_ok ha ho, .twist s vd vs op src o a⟩
  | untwist vd vs op src =>
    cases ha : s.scalar src with
    | none =>
      cases scalar_ne_none.1 ha
      exact ⟨_, exec_untwist_reserved vd vs op s, .failed _ s _ (by decide) (by decide) rfl (fun _ => .inl ⟨rfl, rfl⟩)⟩
    | some a =>
      cases ho : effOp op s.tflag with
      | none =>
        have hs : src ≠ .reserved := fun h => by simp [scalar_ne_none.2 h] at ha
        exact ⟨_, exec_untwist_noFlag hs (effOp_eq_none.1 ho), .failed _ s _ (by decide) (by decide) rfl (fun _ => .inr (.inl ⟨rfl, hs, effOp_eq_none.1 ho⟩))⟩
      | some o =>
        cases hx : untwistVec s.modulus o a (s.v.get vs) with
        | none =>
          obtain ⟨rfl, hi⟩ := untwistVec_eq_none.1 hx
          have hs : src ≠ .reserved := fun h => by simp [scalar_ne_none.2 h] at ha
          have hu : s.modLegal → ¬ s.scalarUnit src := fun hm h => by
            obtain ⟨t, ht⟩ := invM_of_coprime (m := s.modulus) (a := a) hm (by simpa [isUnit] using (scalarUnit_iff ha).1 h)
            simp [hi] at ht
          exact ⟨_, exec_untwist_noninv ha ho hi, .failed _ s _ (by decide) (by decide) rfl (fun hm => .inr (.inr ⟨rfl, hs, multiplies_iff.2 ho, hu hm⟩))⟩
        | some x => exact ⟨_, exec_untwist_ok ha ho hx, .untwist s vd vs op src o a x hx⟩

/-- The inversion every claim about a completed command starts from. -/
theorem completes_of_exec {i : Instr} {s t : State} (h : exec i s = .next t) : Completes i s t := by
  obtain ⟨u, hu, hc⟩ := exec_completes i s
  cases hu.symm.trans h
  exact hc

end Sys2Proof.Machine
end

