-- ==== Sys2Proof/Laws/PerInstr.lean ====
section
/-! SUPPORT. A statement about every command as a term: its word lies in its row of the opcode map (R92). -/

namespace Sys2Proof.Laws.OpcodeRow

/-- The command's word, under its row's mask, is its row's pattern (R92). -/
def Statement (i : Instr) : Prop := encode i &&& i.row.mask = i.row.pattern

theorem nop : Statement .nop := by unfold Statement; decide

theorem setmod (imm : BitVec 8) : Statement (.setmod imm) := by
  unfold Statement encode Instr.row; revert imm; decide

theorem det (m : MatSel) : Statement (.det m) := by unfold Statement; cases m <;> decide

theorem adj (m : MatSel) : Statement (.adj m) := by unfold Statement; cases m <;> decide

theorem minv (m : MatSel) : Statement (.minv m) := by unfold Statement; cases m <;> decide

theorem sinv (src : ScalarSrc) : Statement (.sinv src) := by unfold Statement; cases src <;> decide

theorem matvec (vd : VReg) (m : MatSel) (vs : VReg) : Statement (.matvec vd m vs) := by
  unfold Statement; cases vd <;> cases m <;> cases vs <;> decide

theorem parity (vs : VReg) : Statement (.parity vs) := by unfold Statement; cases vs <;> decide

theorem twist (vd vs : VReg) (op : OpSel) (src : ScalarSrc) : Statement (.twist vd vs op src) := by
  simp only [Statement, encode, Instr.row]
  generalize vd.code = d, vs.code = v, op.code = o, src.code = c
  revert d v o c; decide

theorem untwist (vd vs : VReg) (op : OpSel) (src : ScalarSrc) : Statement (.untwist vd vs op src) := by
  simp only [Statement, encode, Instr.row]
  generalize vd.code = d, vs.code = v, op.code = o, src.code = c
  revert d v o c; decide

end Sys2Proof.Laws.OpcodeRow
end

