-- ==== Sys2Proof/Laws/Window.lean ====
section
/-! SUPPORT. The register window: which register an offset names, what a write can do, and what a transaction answers. -/

namespace Sys2Proof.Machine

/-! ## The register map (R62) -/

/-- The formulas of R62 and its written-out map agree. -/
theorem ofOffset_offset (reg : Reg) : Reg.ofOffset reg.offset = reg := by
  cases reg with
  | k i j => revert i j; decide
  | r i j => revert i j; decide
  | v n l => revert l; cases n <;> decide
  | _ => decide

theorem ofOffset_key {off : Offset} {i j : Fin 3} (h : off.toNat = 0x40 + 4 * (3 * i.val + j.val)) :
    Reg.ofOffset off = .k i j := by
  have : off = (Reg.k i j).offset := BitVec.eq_of_toNat_eq (by rw [h]; clear h; revert i j; decide)
  rw [this, ofOffset_offset]

theorem ofOffset_result {off : Offset} {i j : Fin 3} (h : off.toNat = 0x80 + 4 * (3 * i.val + j.val)) :
    Reg.ofOffset off = .r i j := by
  have : off = (Reg.r i j).offset := BitVec.eq_of_toNat_eq (by rw [h]; clear h; revert i j; decide)
  rw [this, ofOffset_offset]

theorem ofOffset_vector {off : Offset} {n : VReg} {l : Fin 3} (h : off.toNat = 0xC0 + 16 * vregIndex n + 4 * l.val) :
    Reg.ofOffset off = .v n l := by
  have : off = (Reg.v n l).offset := BitVec.eq_of_toNat_eq (by rw [h]; clear h; revert l; cases n <;> decide)
  rw [this, ofOffset_offset]

/-! ## Write sets (R71) -/

/-- The write set by registers and the write set by offsets are one. -/
theorem writeSet_ofOffset (i : Instr) (off : Offset) :
    writeSet i (Reg.ofOffset off) = true ↔ off.toNat ∈ writtenOffsets i := by
  cases i with
  | nop => simp [writeSet, writtenOffsets]
  | setmod imm => simp only [writeSet, writtenOffsets]; revert off; decide
  | det m => simp only [writeSet, writtenOffsets]; revert off; decide
  | adj m => simp only [writeSet, writtenOffsets]; revert off; decide
  | minv m => simp only [writeSet, writtenOffsets]; revert off; decide
  | sinv src => simp only [writeSet, writtenOffsets]; revert off; decide
  | matvec vd m vs => simp only [writeSet, writtenOffsets]; revert off; cases vd <;> decide
  | parity vs => simp only [writeSet, writtenOffsets]; revert off; decide
  | twist vd vs op src => simp only [writeSet, writtenOffsets]; revert off; cases vd <;> decide
  | untwist vd vs op src => simp only [writeSet, writtenOffsets]; revert off; cases vd <;> decide

/-- A register other than STATUS reads the same with and without a pending command (R65). -/
theorem read_pend {s : State} {reg : Reg} (h : reg ≠ .status) (p : Option Word) :
    ({ s with pend := p } : State).read reg = s.read reg := by
  cases reg with
  | status => exact absurd rfl h
  | _ => rfl

/-! ## Writes (R66, R70) -/

theorem busy_eq_false {s : State} : s.busy = false ↔ s.pend = none := by
  cases h : s.pend <;> simp [State.busy, h]

theorem busy_eq_true {s : State} : s.busy = true ↔ ∃ w, s.pend = some w := by
  cases h : s.pend <;> simp [State.busy, h]

theorem busWrite_idle {s : State} (h : s.pend = none) (reg : Reg) (w : Word) : s.busWrite reg w = s.write reg w := by
  simp [State.busWrite, busy_eq_false.2 h]

theorem busWrite_ctrl (s : State) (w : Word) : s.busWrite .ctrl w = s.writeCtrl w := by
  by_cases h : s.busy <;> simp [State.busWrite, State.write, h]

theorem busWrite_status (s : State) (w : Word) : s.busWrite .status w = s.writeStatus w := by
  by_cases h : s.busy <;> simp [State.busWrite, State.write, h]

theorem busWrite_dropped {s : State} {p : Word} (h : s.pend = some p) {reg : Reg} (hc : reg ≠ .ctrl)
    (hs : reg ≠ .status) (w : Word) : s.busWrite reg w = s.raiseError .busyWrite := by
  simp [State.busWrite, busy_eq_true.2 ⟨p, h⟩, hc, hs]

/-- Write-one-to-clear (R26): what a STATUS write leaves. -/
theorem writeStatus_eq (s : State) (w : Word) : s.writeStatus w = { s with status := { s.status with
    done := s.status.done && !w.getLsbD 1
    err := s.status.err && !w.getLsbD 2
    errcode := if w.getLsbD 2 then .none else s.status.errcode } } := by
  unfold State.writeStatus State.clearDone State.clearError
  cases w.getLsbD 1 <;> cases w.getLsbD 2 <;> simp

/-! ## Transactions (R61, R63) -/

theorem admitted_iff (q : BusRequest) : q.admitted = true ↔ q.size = .word ∧ q.offset.toNat % 4 = 0 := by
  have : q.offset.extractLsb' 0 2 = 0#2 ↔ q.offset.toNat % 4 = 0 := by
    rw [← BitVec.toNat_inj]; simp [BitVec.extractLsb'_toNat]
  simp [BusRequest.admitted, this]

theorem busTurn_inReset {s : State} (h : s.rstN = false) (q : BusRequest) : busTurn q s = .fault .accessInReset := by
  simp [busTurn, h]

theorem busTurn_refused {s : State} (h : s.rstN = true) {q : BusRequest} (hq : q.admitted = false) :
    busTurn q s = .next (s.respond ⟨if q.write then s.draw else 0#32, true⟩) := by
  simp [busTurn, h, hq]

theorem busTurn_write {s : State} (h : s.rstN = true) {q : BusRequest} (hq : q.admitted = true) (hw : q.write = true) :
    busTurn q s = .next ((s.busWrite (Reg.ofOffset q.offset) q.wdata).respond ⟨s.draw, false⟩) := by
  simp [busTurn, h, hq, hw]

theorem busTurn_read {s : State} (h : s.rstN = true) {q : BusRequest} (hq : q.admitted = true) (hw : q.write = false) :
    busTurn q s = .next (s.respond ⟨s.busRead (Reg.ofOffset q.offset), false⟩) := by
  simp [busTurn, h, hq, hw]

/-- Out of reset a transaction always answers, with one of three next states. -/
theorem busTurn_cases {s : State} (h : s.rstN = true) (q : BusRequest) :
    (∃ a, busTurn q s = .next (s.respond a)) ∨
      (q.admitted = true ∧ q.write = true ∧
        ∃ a, busTurn q s = .next ((s.busWrite (Reg.ofOffset q.offset) q.wdata).respond a)) := by
  by_cases hq : q.admitted = true
  · by_cases hw : q.write = true
    · exact .inr ⟨hq, hw, _, busTurn_write h hq hw⟩
    · exact .inl ⟨_, busTurn_read h hq (by simpa using hw)⟩
  · exact .inl ⟨_, busTurn_refused h (by simpa using hq)⟩

/-- A busy read outside the write set answers the current value, inside it the free value (R71). -/
theorem busRead_busy {s : State} {w : Word} (h : s.pend = some w) {reg : Reg} (hr : reg ≠ .status) :
    s.busRead reg = if wordWriteSet w reg then s.draw else s.read reg := by
  simp [State.busRead, h, hr]

theorem busRead_idle {s : State} (h : s.pend = none) (reg : Reg) : s.busRead reg = s.read reg := by
  simp [State.busRead, h]

end Sys2Proof.Machine
end

