-- ==== Sys2Proof/Laws/Step.lean ====
section
/-! SUPPORT. Whose turn a step is, and everything a step can do: one inversion lemma that later proofs start from. -/

namespace Sys2Proof.Machine

theorem step_eq (s : State) : step s = nextTurn s := rfl

theorem step_bus {s : State} {q : BusRequest} {rest : List Event} (h : s.inputs = .bus q :: rest) :
    step s = busTurn q s.popped := by
  simp [step, nextTurn, h, takeTurn, State.popped]

theorem step_platform {s : State} {a : HostAccess} {rest : List Event} (h : s.inputs = .platform a :: rest) :
    step s = platformTurn a s.popped := by
  simp [step, nextTurn, h, takeTurn, State.popped]

theorem step_rst {s : State} {level : Bool} {rest : List Event} (h : s.inputs = .rst level :: rest) :
    step s = resetTurn level s.popped := by
  simp [step, nextTurn, h, takeTurn, State.popped]

/-- The engine's turn, whether the list gives it or has run out (log 2). -/
theorem step_engine {s : State} (h : s.engineNext) : step s = complete s.popped := by
  rcases h with h | ⟨rest, h⟩
  · have hp : s.popped = s := by
      unfold State.popped
      rw [h, List.tail_nil, ← h]
    rw [hp]
    simp [step, nextTurn, h]
  · simp [step, nextTurn, h, takeTurn, State.popped]

theorem platformTurn_outside {a : HostAccess} (h : Config.windowOffset a.addr = none) (s : State) :
    platformTurn a s = .next s := by
  simp [platformTurn, h]

theorem platformTurn_inside {a : HostAccess} {off : Offset} (h : Config.windowOffset a.addr = some off) (s : State) :
    platformTurn a s = busTurn (a.request off) s := by
  simp [platformTurn, h]

/-- A transaction at the port, whichever way it came. -/
theorem step_access {s : State} {q : BusRequest} (h : s.nextAccess q) : step s = busTurn q s.popped := by
  rcases h with ⟨rest, h⟩ | ⟨a, off, rest, h, hoff, rfl⟩
  · exact step_bus h
  · rw [step_platform h, platformTurn_inside hoff]

theorem complete_inReset {s : State} (h : s.rstN = false) : complete s = .next s.toReset := by
  simp [complete, h]

theorem complete_idle {s : State} (hr : s.rstN = true) (h : s.pend = none) : complete s = .next s := by
  simp [complete, hr, h]

theorem complete_command {s : State} {w : Word} {i : Instr} (hr : s.rstN = true) (h : s.pend = some w)
    (hd : decode w = .command i) : complete s = exec i s := by
  simp [complete, hr, h, hd]

theorem complete_illegal {s : State} {w : Word} {why : IllegalReason} (hr : s.rstN = true) (h : s.pend = some w)
    (hd : decode w = .illegal why) : complete s = .next (s.failed .illegal) := by
  simp [complete, hr, h, hd, completeErr_eq]

/-- Everything the engine's turn can do. -/
theorem complete_cases (s : State) : ∃ t, complete s = .next t ∧
    ((s.rstN = false ∧ t = s.toReset) ∨ (s.rstN = true ∧ s.pend = none ∧ t = s) ∨
      (∃ w i, s.rstN = true ∧ s.pend = some w ∧ decode w = .command i ∧ exec i s = .next t ∧ Completes i s t) ∨
      (∃ w why, s.rstN = true ∧ s.pend = some w ∧ decode w = .illegal why ∧ t = s.failed .illegal)) := by
  cases hr : s.rstN with
  | false => exact ⟨_, complete_inReset hr, .inl ⟨rfl, rfl⟩⟩
  | true =>
    cases hp : s.pend with
    | none => exact ⟨_, complete_idle hr hp, .inr (.inl ⟨rfl, rfl, rfl⟩)⟩
    | some w =>
      cases hd : decode w with
      | command i =>
        obtain ⟨t, ht, hc⟩ := exec_completes i s
        exact ⟨t, (complete_command hr hp hd).trans ht, .inr (.inr (.inl ⟨w, i, rfl, rfl, hd, ht, hc⟩))⟩
      | illegal why =>
        exact ⟨_, complete_illegal hr hp hd, .inr (.inr (.inr ⟨w, why, rfl, rfl, hd, rfl⟩))⟩

/-- Everything a step that answers a next state can have been. -/
inductive StepKind (s t : State) : Prop
  /-- The access or the pin level changed nothing of MDAE, or the engine had nothing to do. -/
  | quiet (h : t = s.popped)
  /-- A transaction was answered and no register written. -/
  | answered (q : BusRequest) (a : BusResponse) (hr : s.rstN = true) (hq : s.nextAccess q) (h : t = s.popped.respond a)
  /-- A write reached a register, or was dropped. -/
  | written (q : BusRequest) (a : BusResponse) (hr : s.rstN = true) (hq : s.nextAccess q) (ha : q.admitted = true)
      (hw : q.write = true) (h : t = (s.popped.busWrite (Reg.ofOffset q.offset) q.wdata).respond a)
  /-- The reset pin, or the engine's turn while it is 0. -/
  | resetBy (level : Bool) (h : t = { s.popped.toReset with rstN := level })
  /-- The engine completed a command. -/
  | completed (w : Word) (i : Instr) (hr : s.rstN = true) (hn : s.engineNext) (hp : s.pend = some w)
      (hd : decode w = .command i) (he : exec i s.popped = .next t) (h : Completes i s.popped t)
  /-- The engine completed an illegal word. -/
  | illegal (w : Word) (why : IllegalReason) (hr : s.rstN = true) (hn : s.engineNext) (hp : s.pend = some w)
      (hd : decode w = .illegal why) (h : t = s.popped.failed .illegal)

theorem stepKind_of_access {s t : State} {q : BusRequest} (hq : s.nextAccess q) (h : step s = .next t) :
    StepKind s t := by
  rw [step_access hq] at h
  cases hr : s.rstN with
  | false =>
    rw [busTurn_inReset (show s.popped.rstN = false from hr)] at h
    exact absurd h (by simp)
  | true =>
    rcases busTurn_cases (show s.popped.rstN = true from hr) q with ⟨a, ha⟩ | ⟨hqa, hw, a, ha⟩
    · cases ha.symm.trans h
      exact .answered q a hr hq rfl
    · cases ha.symm.trans h
      exact .written q a hr hq hqa hw rfl

theorem stepKind_of_engine {s t : State} (he : s.engineNext) (h : step s = .next t) : StepKind s t := by
  rw [step_engine he] at h
  obtain ⟨u, hu, hc⟩ := complete_cases s.popped
  cases hu.symm.trans h
  rcases hc with ⟨hr, rfl⟩ | ⟨-, -, rfl⟩ | ⟨w, i, hr, hp, hd, hx, hc⟩ | ⟨w, why, hr, hp, hd, rfl⟩
  · exact .resetBy s.rstN rfl
  · exact .quiet rfl
  · exact .completed w i hr he hp hd hx hc
  · exact .illegal w why hr he hp hd rfl

/-- The inversion of a step (R74): a next state comes about in one of these ways. -/
theorem step_cases {s t : State} (h : step s = .next t) : StepKind s t := by
  cases hin : s.inputs with
  | nil => exact stepKind_of_engine (.inl hin) h
  | cons e rest =>
    cases e with
    | bus q => exact stepKind_of_access (.inl ⟨rest, hin⟩) h
    | engine => exact stepKind_of_engine (.inr ⟨rest, hin⟩) h
    | platform a =>
      cases ho : Config.windowOffset a.addr with
      | none =>
        rw [step_platform hin, platformTurn_outside ho] at h
        cases h
        exact .quiet rfl
      | some off => exact stepKind_of_access (.inr ⟨a, off, rest, hin, ho, rfl⟩) h
    | rst level =>
      rw [step_rst hin] at h
      unfold resetTurn at h
      split at h
      · cases h
        exact .quiet rfl
      · cases h
        exact .resetBy level rfl

/-! ## Runs -/

theorem run_zero (s : State) : Host.Core.run Sys2Proof.core 0 s = .next s := rfl

theorem run_succ {s t : State} (h : step s = .next t) (n : Nat) :
    Host.Core.run Sys2Proof.core (n + 1) s = Host.Core.run Sys2Proof.core n t := by
  have hc : Sys2Proof.core.step s = .next t := h
  simp only [Host.Core.run, hc]

/-- A run that answers a next state began with a step that did. -/
theorem run_succ_next {s u : State} {n : Nat} (h : Host.Core.run Sys2Proof.core (n + 1) s = .next u) :
    ∃ t, step s = .next t ∧ Host.Core.run Sys2Proof.core n t = .next u := by
  cases ht : step s with
  | next t => exact ⟨t, rfl, (run_succ ht n).symm.trans h⟩
  | fault r =>
    have hc : Sys2Proof.core.step s = .fault r := ht
    simp [Host.Core.run, hc] at h
  | refused r =>
    have hc : Sys2Proof.core.step s = .refused r := ht
    simp [Host.Core.run, hc] at h

end Sys2Proof.Machine
end

