-- ==== Sys2Proof/Tests/Slice0.lean ====
section
/-! SUPPORT. The model's own tests, each on one decode or one step, with the expected values of spec/95_test_vectors.md
(V-… and E…), and for every statement with hypotheses a concrete state that meets all of them. -/

namespace Sys2Proof.Tests

open Sys2Proof Sys2Proof.Machine

/-! ## Helpers -/

/-- What `f` says of the next state, if there is one. -/
def after {α : Type} (o : Outcome) (f : State → α) : Option α :=
  match o with
  | .next t => some (f t)
  | .fault _ => none
  | .refused _ => none

/-- The machine `s` with this access next. -/
def access (s : State) (q : BusRequest) : State := { s with inputs := [.bus q] }

def readAt (off : Offset) : BusRequest := ⟨false, off, .word, 0#32⟩
def writeAt (off : Offset) (w : Word) : BusRequest := ⟨true, off, .word, w⟩

/-- rdata and err of the answer to an aligned read. -/
def readBack (s : State) (off : Offset) : Option (Option BusResponse) :=
  after (step (access s (readAt off))) (fun t => t.resp)

/-- A residue matrix, row by row. -/
def mat (a b c d e f g h i : Residue) : Mat3 Residue := ⟨⟨a, b, c⟩, ⟨d, e, f⟩, ⟨g, h, i⟩⟩

/-- The key matrices of 95_test_vectors.md. -/
def k26 : Mat3 Residue := mat 6 24 1 13 16 10 20 17 15
def k36 : Mat3 Residue := mat 16 34 11 23 26 20 30 27 25
def k36h : Mat3 Residue := mat 16 34 11 23 27 20 30 27 25
def matId : Mat3 Residue := mat 1 0 0 0 1 0 0 0 1

/-- M = 26, everything else at reset. -/
def mod26 : State := { State.reset with modulus := 26#8 }

/-- The end state of program P2, with S = 5 and INV = 7. -/
def loaded : State := { State.reset with
  k := k36h, r := mat 9 17 17 31 22 35 9 12 34, v := ⟨⟨10, 12, 29⟩, ⟨28, 23, 22⟩, ⟨23, 18, 17⟩, ⟨10, 12, 29⟩⟩
  s := 5#8, det := 31#8, inv := 7#8, pcnt := 2#2, tflag := 1#2
  status := ⟨true, false, true, false, true, .none⟩ }

/-- The command of a word pending in `s`. -/
def busyWith (s : State) (w : Word) : State := { s with pend := some w }

/-! ## WellFormed: the ill-formed terms (R96, R99) -/

theorem test_wellFormed_refuses_reserved_scalar :
    (Instr.sinv .reserved).wellFormed = false ∧ (Instr.twist .v0 .v1 .add .reserved).wellFormed = false ∧
      (Instr.untwist .v0 .v1 .mul .reserved).wellFormed = false := by decide

/-! ## Decoding: words written out from R91, R92 and R102 (V-E1 to V-E29) -/

theorem test_decode_control : decode 0x00000000#32 = .command .nop ∧ decode 0x1000001A#32 = .command (.setmod 26#8) ∧
    decode 0x10000000#32 = .command (.setmod 0#8) := by decide

theorem test_decode_linear : decode 0x20000000#32 = .command (.det .k) ∧ decode 0x20010000#32 = .command (.det .r) ∧
    decode 0x30010000#32 = .command (.adj .r) ∧ decode 0x40000000#32 = .command (.minv .k) := by decide

theorem test_decode_sinv : decode 0x50000000#32 = .command (.sinv .det) ∧ decode 0x50001000#32 = .command (.sinv .s) ∧
    decode 0x50002000#32 = .command (.sinv .inv) := by decide

theorem test_decode_matvec : decode 0x60010E00#32 = .command (.matvec .v3 .r .v2) ∧
    decode 0x60000400#32 = .command (.matvec .v1 .k .v0) := by decide

theorem test_decode_twist : decode 0x70000300#32 = .command (.parity .v3) ∧
    decode 0x8000C500#32 = .command (.twist .v1 .v1 .flag .det) ∧
    decode 0x80005E00#32 = .command (.twist .v3 .v2 .sub .s) ∧
    decode 0x8000A000#32 = .command (.twist .v0 .v0 .mul .inv) ∧
    decode 0x9000C900#32 = .command (.untwist .v2 .v1 .flag .det) := by decide

theorem test_decode_unused_field : decode 0x00000001#32 = .illegal .unusedField ∧
    decode 0x00010000#32 = .illegal .unusedField ∧ decode 0x10000100#32 = .illegal .unusedField ∧
    decode 0x20000001#32 = .illegal .unusedField ∧ decode 0x30004000#32 = .illegal .unusedField ∧
    decode 0x40000400#32 = .illegal .unusedField ∧ decode 0x50011000#32 = .illegal .unusedField ∧
    decode 0x50001001#32 = .illegal .unusedField ∧ decode 0x60001000#32 = .illegal .unusedField ∧
    decode 0x60000001#32 = .illegal .unusedField ∧ decode 0x70000400#32 = .illegal .unusedField ∧
    decode 0x70010000#32 = .illegal .unusedField ∧ decode 0x80010000#32 = .illegal .unusedField ∧
    decode 0x90000001#32 = .illegal .unusedField := by decide

theorem test_decode_reserved : decode 0x00020000#32 = .illegal .reservedBits ∧
    decode 0x08000000#32 = .illegal .reservedBits ∧ decode 0xFFFFFFFF#32 = .illegal .reservedBits ∧
    decode 0xA0000000#32 = .illegal .reservedOpcode ∧ decode 0xF0000000#32 = .illegal .reservedOpcode ∧
    decode 0x50003000#32 = .illegal .reservedScalar ∧ decode 0x8000F000#32 = .illegal .reservedScalar ∧
    decode 0x9000B000#32 = .illegal .reservedScalar := by decide

theorem test_encode : encode (.setmod 26#8) = 0x1000001A#32 ∧ encode (.adj .r) = 0x30010000#32 ∧
    encode (.sinv .s) = 0x50001000#32 ∧ encode (.matvec .v3 .r .v2) = 0x60010E00#32 ∧
    encode (.parity .v3) = 0x70000300#32 ∧ encode (.twist .v3 .v2 .sub .s) = 0x80005E00#32 ∧
    encode (.untwist .v2 .v1 .flag .det) = 0x9000C900#32 := by decide

theorem test_decodeTableWord : decodeTableWord 32 0x40010000 = some (.minv .r) ∧ decodeTableWord 32 0x50003000 = none := by
  decide

/-- R102: case does not matter, and a number may be hexadecimal. -/
theorem test_assemble : assemble "matvec v1, K, V0".toList = some (.matvec .v1 .k .v0) ∧
    assemble "SETMOD #0x1a".toList = some (.setmod 26#8) ∧ assemble "SETMOD #256".toList = none ∧
    assemble "UNTWIST V2, V1, flag, det".toList = some (.untwist .v2 .v1 .flag .det) ∧
    assemble "twf V1".toList = some (.twist .v1 .v1 .flag .det) ∧ assemble "TWIST V0, V1, ADD".toList = none := by decide

/-! ## One completion of each command -/

/-- V-C2. -/
theorem test_nop : after (step ({ State.reset with status := ⟨true, true, false, false, false, .illegal⟩ }.withFetchWord
    32 0x00000000)) (fun t => (t.statusWord, t.pend)) = some (0x106#32, none) := by decide

/-- V-C3. -/
theorem test_setmod : after (step (loaded.withFetchWord 32 0x1000001A)) id =
    some { mod26 with status := ⟨true, false, false, false, false, .none⟩ } := by decide

/-- V-C6. -/
theorem test_setmod_badmod : after (step (State.reset.withFetchWord 32 0x10000001)) (fun t => (t.modulus, t.statusWord)) =
    some (36#8, 0x206#32) := by decide

/-- V-D3. -/
theorem test_det : after (step ({ State.reset with k := k36h }.withFetchWord 32 0x20000000))
    (fun t => (t.det, t.statusWord)) = some (31#8, 0x012#32) := by decide

/-- V-D2. -/
theorem test_det_nonunit : after (step ({ State.reset with k := k36 }.withFetchWord 32 0x20000000))
    (fun t => (t.det, t.statusWord)) = some (33#8, 0x002#32) := by decide

/-- V-A1. -/
theorem test_adj : after (step ({ mod26 with k := k26 }.withFetchWord 32 0x30000000)) (fun t => (t.r, t.statusWord)) =
    some (mat 18 21 16 5 18 5 5 14 18, 0x002#32) := by decide

/-- V-A9: in place. -/
theorem test_adj_inPlace : after (step ({ State.reset with r := k36h }.withFetchWord 32 0x30010000)) (fun t => t.r) =
    some (mat 27 23 23 25 34 5 27 12 10) := by decide

/-- V-M3. -/
theorem test_minv : after (step ({ State.reset with k := k36h }.withFetchWord 32 0x40000000))
    (fun t => (t.det, t.r, t.statusWord)) = some (31#8, mat 9 17 17 31 22 35 9 12 34, 0x052#32) := by decide

/-- V-M2: no inverse. -/
theorem test_minv_nonunit : after (step ({ State.reset with k := k36, r := matId }.withFetchWord 32 0x40000000))
    (fun t => (t.det, t.r, t.statusWord)) = some (33#8, matId, 0x002#32) := by decide

/-- V-S6. -/
theorem test_sinv : after (step ({ State.reset with s := 5#8 }.withFetchWord 32 0x50001000))
    (fun t => (t.inv, t.statusWord)) = some (29#8, 0x022#32) := by decide

/-- V-S2. -/
theorem test_sinv_nonunit : after (step ({ State.reset with s := 33#8, inv := 4#8 }.withFetchWord 32 0x50001000))
    (fun t => (t.inv, t.statusWord)) = some (4#8, 0x002#32) := by decide

/-- V-X2. -/
theorem test_matvec : after (step ({ mod26 with k := k26, v := zeroVFile.set .v0 ⟨0, 2, 19⟩ }.withFetchWord 32 0x60000400))
    (fun t => (t.v.v1, t.v.v0)) = some (⟨15, 14, 7⟩, ⟨0, 2, 19⟩) := by decide

/-- V-X6: in place. -/
theorem test_matvec_inPlace : after (step ({ State.reset with
    k := mat 0 1 0 1 0 0 0 0 1, v := zeroVFile.set .v0 ⟨3, 4, 5⟩ }.withFetchWord 32 0x60000000)) (fun t => t.v.v0) =
    some ⟨4, 3, 5⟩ := by decide

/-- V-P11. -/
theorem test_parity : after (step ({ State.reset with tflag := 3#2, v := zeroVFile.set .v3 ⟨1, 2, 4⟩ }.withFetchWord
    32 0x70000300)) (fun t => (t.pcnt, t.tflag)) = some (2#2, 1#2) := by decide

/-- V-P5 and V-P8: 3 and 0 even lanes. -/
theorem test_parity_ends : after (execParity .v0 State.reset) (fun t => (t.pcnt, t.tflag)) = some (3#2, 2#2) ∧
    after (execParity .v0 (State.reset.setV .v0 ⟨35, 35, 35⟩)) (fun t => (t.pcnt, t.tflag)) = some (0#2, 0#2) := by decide

/-- V-T2. -/
theorem test_twist : after (step ((({ State.reset with s := 5#8 } : State).setV .v0 ⟨0, 1, 35⟩).withFetchWord 32 0x80005400))
    (fun t => (t.v.v1, t.statusWord)) = some (⟨31, 32, 30⟩, 0x002#32) := by decide

/-- V-T17. -/
theorem test_twist_badflag : after (step ((({ State.reset with tflag := 3#2 } : State).setV .v0 ⟨1, 2, 3⟩).withFetchWord
    32 0x8000C000)) (fun t => (t.v.v0, t.statusWord)) = some (⟨1, 2, 3⟩, 0x406#32) := by decide

/-- V-U8a. -/
theorem test_untwist : after (step ((({ State.reset with det := 31#8, tflag := 2#2 } : State).setV .v1
    ⟨29, 18, 23⟩).withFetchWord 32 0x9000C900)) (fun t => (t.v.v2, t.inv, t.statusWord)) =
    some (⟨23, 18, 17⟩, 0#8, 0x002#32) := by decide

/-- V-U9 and V-U10: BADFLAG before NONINV_DET. -/
theorem test_untwist_errors :
    after (execUntwist .v0 .v0 .flag .det { State.reset with det := 6#8, tflag := 3#2 }) (fun t => t.statusWord) =
      some 0x406#32 ∧
    after (execUntwist .v0 .v0 .flag .det { State.reset with det := 6#8, tflag := 2#2 }) (fun t => t.statusWord) =
      some 0x306#32 := by decide

/-- V-E30: ILLEGAL before BADFLAG; V-E4. -/
theorem test_illegal : after (step ({ State.reset with tflag := 3#2 }.withFetchWord 32 0x8000F000)) (fun t => t.statusWord) =
      some 0x106#32 ∧
    after (step (State.reset.withFetchWord 32 0x00020000)) (fun t => t.statusWord) = some 0x106#32 := by decide

/-! ## The register window -/

/-- V-B1, V-B9. -/
theorem test_bus_reads : readBack State.reset 0x00#8 = some (some ⟨0x4D444145#32, false⟩) ∧
    readBack State.reset 0x04#8 = some (some ⟨1#32, false⟩) ∧ readBack State.reset 0x10#8 = some (some ⟨0#32, false⟩) ∧
    readBack State.reset 0x14#8 = some (some ⟨36#32, false⟩) := by decide

/-- V-B3 and V-B3a. -/
theorem test_bus_residue : after (step (access State.reset (writeAt 0x40#8 0xFFFFFFFF#32))) (fun t => t.k.get 0 0) =
      some 3#8 ∧
    after (step (access mod26 (writeAt 0x40#8 0xFFFFFFFF#32))) (fun t => t.k.get 0 0) = some 21#8 := by decide

/-- V-B4 and V-B5. -/
theorem test_bus_v3_tflag : after (step (access State.reset (writeAt 0xF8#8 35#32))) (fun t => t.v.v3.l2) = some 35#8 ∧
    after (step (access State.reset (writeAt 0x28#8 0xFFFFFFFE#32))) (fun t => t.tflag) = some 2#2 := by decide

/-- V-B7, V-B8 and V-B10. -/
theorem test_bus_readOnly : after (step (access State.reset (writeAt 0x14#8 5#32))) (fun t => t.modulus) = some 36#8 ∧
    after (step (access State.reset (writeAt 0x18#8 9#32))) (fun t => t.det) = some 0#8 ∧
    readBack loaded 0x2C#8 = some (some ⟨0#32, false⟩) ∧ readBack loaded 0xFC#8 = some (some ⟨0#32, false⟩) := by decide

/-- V-B11 and V-B12. -/
theorem test_bus_refused : after (step (access loaded ⟨false, 0x40#8, .half, 0#32⟩)) (fun t => (t.resp, t.status)) =
      some (some ⟨0#32, true⟩, loaded.status) ∧
    after (step (access loaded (writeAt 0x42#8 7#32))) (fun t => (t.resp.map (·.err), t.k, t.status)) =
      some (some true, k36h, loaded.status) := by decide

/-- V-B13. -/
theorem test_bus_ctrl : after (step (access State.reset (writeAt 0x08#8 0x7FFFFFFF#32))) (fun t => t.ctrlWord) =
    some 3#32 := by decide

/-- V-B15 and V-B16. -/
theorem test_bus_status : after (step (access { State.reset with status := ⟨true, true, false, false, false, .illegal⟩ }
      (writeAt 0x0C#8 4#32))) (fun t => t.statusWord) = some 0x002#32 ∧
    after (step (access { State.reset with status := ⟨true, true, true, false, false, .noninvDet⟩ }
      (writeAt 0x0C#8 0xFFFFFFFF#32))) (fun t => t.statusWord) = some 0x010#32 := by decide

/-- V-B17 and V-B19: writes while a command is pending. -/
theorem test_bus_busy : after (step (access (busyWith State.reset 0x20000000#32) (writeAt 0x20#8 9#32)))
      (fun t => (t.s, t.statusWord)) = some (0#8, 0x505#32) ∧
    after (step (access (busyWith State.reset 0#32) (writeAt 0x08#8 3#32))) (fun t => (t.ctrlWord, t.statusWord)) =
      some (3#32, 0x001#32) := by decide

/-- R71: a register outside the pending command's write set reads its value. -/
theorem test_bus_busy_read : readBack (busyWith loaded 0x40000000#32) 0x40#8 = some (some ⟨16#32, false⟩) ∧
    readBack (busyWith loaded 0x40000000#32) 0x14#8 = some (some ⟨36#32, false⟩) := by decide

/-- V-R3. -/
theorem test_softReset : after (step (access (busyWith loaded 0x40000000#32) (writeAt 0x08#8 0x80000003#32)))
    (fun t => { t with resp := none, draws := 0 }) = some State.reset := by decide

/-- V-R1, and U6 while `rst_n` is 0. -/
theorem test_reset : after (step { loaded with inputs := [.rst false] }) (fun t => { t with rstN := true }) =
      some State.reset ∧
    step { State.reset with rstN := false, inputs := [.bus (readAt 0x00#8)] } = .fault .accessInReset := by
  refine ⟨by decide, rfl⟩

/-- V-I2, V-I3, V-I4. -/
theorem test_irq : ({ State.reset with ctrl := ⟨true, false⟩, status := ⟨true, false, false, false, false, .none⟩ } :
      State).irq = true ∧
    ({ State.reset with ctrl := ⟨false, true⟩, status := ⟨true, false, false, false, false, .none⟩ } : State).irq = false ∧
    ({ State.reset with ctrl := ⟨false, true⟩, status := ⟨true, true, false, false, false, .illegal⟩ } : State).irq =
      true := by decide

/-- R60: the window's last byte, and the first address above it, whatever BASE is. -/
theorem test_windowOffset : Config.windowOffset (Config.base + 255) = some 0xFF#8 ∧
    Config.windowOffset (Config.base + 256) = none := by
  constructor
  · unfold Config.windowOffset Config.windowSize
    rw [if_pos (by omega), Nat.add_sub_cancel_left]
  · unfold Config.windowOffset Config.windowSize
    rw [if_neg (by omega)]

/-! ## Witnesses: states that meet the hypotheses of the statements

Each theorem is named after its statement. `loaded` is out of reset with M = 36 and nothing pending. -/

theorem loaded_reduced : loaded.Reduced where
  kBelow := by decide
  rBelow := by decide
  vBelow := by intro n; cases n <;> decide
  sBelow := by decide
  detBelow := by decide
  invBelow := by decide

theorem loaded_modLegal : loaded.modLegal := by unfold State.modLegal; decide

theorem loaded_inv : loaded.Inv where
  modLegal := loaded_modLegal
  reduced := loaded_reduced
  noErrorNoCode := by decide
  heldInReset := by intro h; cases h

theorem access_next (s : State) (q : BusRequest) : (access s q).nextAccess q := .inl ⟨[], rfl⟩

/-- A next state is there to speak about. -/
theorem exec_answers (i : Instr) (s : State) : ∃ t, exec i s = .next t := by
  obtain ⟨t, ht, -⟩ := exec_completes i s
  exact ⟨t, ht⟩

theorem witness_DecodeOfEncodeIsTheCommand : (Instr.untwist .v3 .v0 .flag .inv).wellFormed = true := by decide

theorem witness_DecodedWordsReencode : decode 0x9000EC00#32 = .command (.untwist .v3 .v0 .flag .inv) := by decide

/-- A matched word that decodes, the three matched words that do not, and an unmatched one. -/
theorem witness_OpcodeMapSelectsTheCommand :
    (Instr.setmod 0xFF#8).row.selects 0x100000FF#32 = true ∧ decode 0x100000FF#32 = .command (.setmod 0xFF#8) ∧
    (Instr.sinv .s).row.selects 0x50003000#32 = true ∧ decode 0x50003000#32 = .illegal .reservedScalar ∧
    (Instr.twist .v0 .v0 .add .s).row.selects 0x8000FF00#32 = true ∧ decode 0x8000FF00#32 = .illegal .reservedScalar ∧
    (Instr.untwist .v0 .v0 .add .s).row.selects 0x90003000#32 = true ∧ decode 0x90003000#32 = .illegal .reservedScalar ∧
    (∀ row ∈ opcodeMap, row.selects 0xA0000000#32 = false) := by decide

theorem witness_AssembledTextGivesTheCommand : (Instr.setmod 0xFF#8).wellFormed = true ∧
    instrText (.setmod 0xFF#8) = "SETMOD #255".toList := by decide

theorem witness_StepKeepsTheInvariant : loaded.Inv ∧ ∃ t, step loaded = .next t := ⟨loaded_inv, _, rfl⟩

/-- Issue and completion of MINV, then a reset pulse. -/
theorem witness_ReachableResiduesBelowModulus : ∃ t, Host.Core.run Sys2Proof.core 4 { State.reset with
    inputs := [.wr (.k 0 0) 41#32, .issue (.minv .k), .engine, .rst false] } = .next t := ⟨_, rfl⟩

/-- Idle and busy. -/
theorem witness_IssueMakesTheWordPending :
    (access loaded (writeAt 0x10#8 0x40000000#32)).nextAccess (writeAt 0x10#8 0x40000000#32) ∧
    (access loaded (writeAt 0x10#8 0x40000000#32)).rstN = true ∧
    (access loaded (writeAt 0x10#8 0x40000000#32)).pend = none ∧
    (access (busyWith loaded 0#32) (writeAt 0x10#8 0x40000000#32)).nextAccess (writeAt 0x10#8 0x40000000#32) ∧
    (access (busyWith loaded 0#32) (writeAt 0x10#8 0x40000000#32)).pend ≠ none :=
  ⟨access_next _ _, rfl, rfl, access_next _ _, by decide⟩

theorem witness_EngineTurnRunsThePendingCommand : loaded.rstN = true ∧ (busyWith loaded 0x40000000#32).pend =
    some 0x40000000#32 ∧ decode 0x40000000#32 = .command (.minv .k) ∧ (busyWith loaded 0x40000000#32).engineNext :=
  ⟨rfl, rfl, by decide, .inl rfl⟩

theorem witness_EngineTurn_listed : ({ busyWith loaded 0x40000000#32 with inputs := [.engine] } : State).engineNext :=
  .inr ⟨[], rfl⟩

theorem witness_IllegalWordFailsAtCompletion : (busyWith loaded 0xA0000000#32).rstN = true ∧
    decode 0xA0000000#32 = .illegal .reservedOpcode ∧ (busyWith loaded 0xA0000000#32).engineNext :=
  ⟨rfl, by decide, .inl rfl⟩

/-- Every cause of R210 that a command has, and a command without one. -/
theorem witness_FailingCommandsChangeOnlyStatus :
    commandFails (.setmod 1#8) loaded .badMod ∧ commandFails (.sinv .reserved) loaded .illegal ∧
    commandFails (.twist .v0 .v0 .flag .det) { loaded with tflag := 3#2 } .badFlag ∧
    commandFails (.untwist .v0 .v0 .mul .s) { loaded with s := 6#8 } .noninvDet ∧
    (∀ c, ¬ commandFails (.setmod 2#8) loaded c) ∧ loaded.modLegal := by
  refine ⟨⟨rfl, by decide⟩, ⟨rfl, rfl⟩, .inr ⟨rfl, by decide, by decide⟩,
    .inr (.inr ⟨rfl, by decide, .inl rfl, ?_⟩), fun c h => absurd h.2 (by decide), loaded_modLegal⟩
  show ¬ Nat.gcd (6#8 : Residue).toNat loaded.modulus.toNat = 1
  decide

theorem witness_PendingCommandIsCompleted : ({ busyWith loaded 0#32 with inputs := [.rd .status, .engine] } : State).rstN =
    true ∧ (busyWith loaded 0#32).pend = some 0#32 := ⟨rfl, rfl⟩

theorem witness_SetmodSetsTheModulus : (1#8 : BitVec 8).toNat < 2 ∧ 2 ≤ (2#8 : BitVec 8).toNat ∧
    2 ≤ (255#8 : BitVec 8).toNat := by decide

/-- DET, ADJ, MATVEC and PARITY ask for a legal modulus alone: the smallest and the largest. -/
theorem witness_modLegal_ends : ({ State.reset with modulus := 2#8 } : State).modLegal ∧
    ({ State.reset with modulus := 255#8 } : State).modLegal := by unfold State.modLegal; decide

/-- A unit determinant and a determinant that is none. -/
theorem witness_MinvWritesTheInverse :
    after (exec (.minv .k) loaded) (fun t => Nat.gcd t.det.toNat loaded.modulus.toNat) = some 1 ∧
    after (exec (.minv .k) { loaded with k := k36 }) (fun t => Nat.gcd t.det.toNat loaded.modulus.toNat) = some 3 := by
  decide

/-- Each scalar source, a unit and a number that is none. -/
theorem witness_SinvWritesTheInverse : Nat.gcd loaded.det.toNat loaded.modulus.toNat = 1 ∧
    Nat.gcd loaded.s.toNat loaded.modulus.toNat = 1 ∧ Nat.gcd loaded.inv.toNat loaded.modulus.toNat = 1 ∧
    Nat.gcd ({ loaded with det := 0#8 } : State).det.toNat loaded.modulus.toNat ≠ 1 ∧
    Nat.gcd ({ loaded with s := 33#8 } : State).s.toNat loaded.modulus.toNat ≠ 1 ∧
    Nat.gcd ({ loaded with inv := 6#8 } : State).inv.toNat loaded.modulus.toNat ≠ 1 := by decide

/-- PARITY's three classes: V-P2, V-P6 and V-P5. -/
theorem witness_ParityCountsEvenLanes : evenCount ⟨0#8, 1#8, 3#8⟩ = 1 ∧ evenCount (loaded.v.get .v0) = 2 ∧
    evenCount (State.reset.v.get .v0) = 3 := by decide

/-- TWIST and UNTWIST: no flag; each flag; and an explicit operation with TFLAG = 3. The clauses of the lane functions
exclude each other, because OP and TFLAG name one operation at most. -/
theorem witness_TwistWritesTheLanes : loaded.modLegal ∧ loaded.scalar .s = some 5#8 ∧ noFlag .flag 3#2 ∧
    (∀ f : BitVec 2, f ≠ 3#2 → ¬ noFlag .flag f) ∧ namesOp .flag 0#2 .add ∧ namesOp .flag 1#2 .sub ∧
    namesOp .flag 2#2 .mul ∧ namesOp .add 3#2 .add ∧ ¬ noFlag .add 3#2 :=
  ⟨loaded_modLegal, rfl, by decide, by decide, .inr ⟨rfl, rfl⟩, .inr ⟨rfl, rfl⟩, .inr ⟨rfl, rfl⟩, .inl rfl, by decide⟩

theorem witness_operations_exclude (op : OpSel) (f : BitVec 2) (o o' : TwistOp) (h : namesOp op f o)
    (h' : namesOp op f o') : o = o' := by
  have h := effOp_eq_some.2 h
  have h' := effOp_eq_some.2 h'
  exact Option.some.inj (h.symm.trans h')

/-- UNTWIST by Multiply, with a unit and with a non-unit. -/
theorem witness_UntwistWritesTheLanes : loaded.modLegal ∧ multiplies .mul loaded.tflag ∧ multiplies .flag 2#2 ∧
    Nat.gcd loaded.s.toNat loaded.modulus.toNat = 1 ∧
    Nat.gcd ({ loaded with s := 6#8 } : State).s.toNat loaded.modulus.toNat ≠ 1 ∧ ¬ noFlag .mul loaded.tflag :=
  ⟨loaded_modLegal, .inl rfl, .inr ⟨rfl, rfl⟩, by decide, by decide, by decide⟩

theorem witness_AdjugateTimesMatrixIsDeterminant : loaded.modLegal ∧ ∃ t, exec (.adj .k) loaded = .next t :=
  ⟨loaded_modLegal, _, rfl⟩

/-- Either matrix. -/
theorem witness_MinvResultIsInverseOnBothSides : loaded.modLegal ∧
    after (exec (.minv .k) loaded) (fun t => t.status.miv) = some true ∧
    after (exec (.minv .r) loaded) (fun t => t.status.miv) = some true := ⟨loaded_modLegal, by decide, by decide⟩

theorem witness_SinvResultIsUnique : loaded.scalar .s = some 5#8 ∧
    after (exec (.sinv .s) loaded) (fun t => (t.status.siv, t.inv)) = some (true, 29#8) ∧
    (29 : Nat) < loaded.modulus.toNat ∧ (5#8 : Residue).toNat * 29 % loaded.modulus.toNat = 1 := by decide

/-- MINV K in `loaded` gives `loaded` again, so it is its own later state. -/
theorem witness_MatvecByInverseRestoresTheBlock : exec (.minv .k) loaded = .next loaded ∧ loaded.status.miv = true ∧
    loaded.modLegal ∧ loaded.Reduced ∧ loaded.tflag ≠ 3#2 := by
  refine ⟨?_, rfl, loaded_modLegal, loaded_reduced, by decide⟩
  have h : after (exec (.minv .k) loaded) id = some loaded := by decide
  obtain ⟨t, ht⟩ := exec_answers (.minv .k) loaded
  rw [ht] at h ⊢
  exact congrArg Host.Outcome.next (Option.some.inj h)

/-- The hypotheses of BlockRoundTrip are met by the same state, which has the DET of its MINV. -/
theorem witness_BlockRoundTrip : ∃ s0 s1 s : State, s0.modLegal ∧ exec (.minv .k) s0 = .next s1 ∧ s1.status.miv = true ∧
    s.modulus = s1.modulus ∧ s.k = s1.k ∧ s.r = s1.r ∧ s.det = s1.det ∧ s.Reduced ∧ s.tflag ≠ 3#2 :=
  ⟨loaded, loaded, loaded, loaded_modLegal, witness_MatvecByInverseRestoresTheBlock.1, rfl, rfl, rfl, rfl, rfl,
    loaded_reduced, by decide⟩

/-- Multiply by the unit 5, and Subtract by the flag with the unit 31. For the UNTWIST: a later state in which TFLAG holds no
flag, the operation is named outright and the scalar stands in S. -/
theorem witness_UntwistReversesTwist : loaded.modLegal ∧ loaded.Reduced ∧ loaded.scalar .s = some 5#8 ∧
    namesOp .mul loaded.tflag .mul ∧ Nat.gcd (5#8 : Residue).toNat loaded.modulus.toNat = 1 ∧
    loaded.scalar .det = some 31#8 ∧ namesOp .flag loaded.tflag .sub ∧
    ∃ t u : State, exec (.twist .v1 .v0 .flag .det) loaded = .next t ∧ u.modulus = t.modulus ∧
      u.v.get .v2 = t.v.get .v1 ∧ u.scalar .s = some 31#8 ∧ namesOp .sub u.tflag .sub ∧ u.tflag = 3#2 := by
  refine ⟨loaded_modLegal, loaded_reduced, rfl, .inl rfl, by decide, rfl, .inr ⟨rfl, rfl⟩, ?_⟩
  obtain ⟨t, ht⟩ := exec_answers (.twist .v1 .v0 .flag .det) loaded
  exact ⟨t, { t.setV .v2 (t.v.get .v1) with s := 31#8, tflag := 3#2 }, ht, rfl, rfl, rfl, .inl rfl, rfl⟩

/-- The non-unit 6, and 0. -/
theorem witness_NonUnitMultiplyLosesInformation : loaded.modLegal ∧
    ({ loaded with s := 6#8 } : State).scalar .s = some 6#8 ∧ multiplies .mul loaded.tflag ∧
    Nat.gcd (6#8 : Residue).toNat loaded.modulus.toNat ≠ 1 ∧ Nat.gcd (0#8 : Residue).toNat loaded.modulus.toNat ≠ 1 :=
  ⟨loaded_modLegal, rfl, .inl rfl, by decide, by decide⟩

/-- Every access of the window is the next access of some state out of reset, idle or busy, at every offset. -/
theorem witness_nextAccess (q : BusRequest) (p : Word) : (access loaded q).rstN = true ∧ (access loaded q).nextAccess q ∧
    (access loaded q).pend = none ∧ (access loaded q).modLegal ∧ (access (busyWith loaded p) q).rstN = true ∧
    (access (busyWith loaded p) q).nextAccess q ∧ (access (busyWith loaded p) q).pend = some p :=
  ⟨rfl, access_next _ _, rfl, loaded_modLegal, rfl, access_next _ _, rfl⟩

/-- The platform's way to the port: BASE + 0x40 passes offset 0x40. -/
theorem witness_nextAccess_platform : ({ loaded with inputs :=
    [.platform ⟨Config.base + 0x40, false, .word, 0#32⟩] } : State).nextAccess (readAt 0x40#8) := by
  refine .inr ⟨⟨Config.base + 0x40, false, .word, 0#32⟩, 0x40#8, [], rfl, ?_, rfl⟩
  unfold Config.windowOffset Config.windowSize
  rw [if_pos (by simp), Nat.add_sub_cancel_left]

/-- RefusedAccessAnswersError: each kind of refused access, and one that is performed. -/
theorem witness_RefusedAccessAnswersError : (⟨false, 0x40#8, .half, 0#32⟩ : BusRequest).size ≠ .word ∧
    (writeAt 0x42#8 7#32).offset.toNat % 4 ≠ 0 ∧ (readAt 0xFC#8).size = .word ∧ (readAt 0xFC#8).offset.toNat % 4 = 0 := by
  decide

/-- IdleReadsFollowTheMap, ResidueWritesAreReduced: every row of R62 has its offset, first and last ones written out. -/
theorem witness_IdleReadsFollowTheMap :
    (∀ i j : Fin 3, (Reg.k i j).offset.toNat = 0x40 + 4 * (3 * i.val + j.val)) ∧
    (∀ i j : Fin 3, (Reg.r i j).offset.toNat = 0x80 + 4 * (3 * i.val + j.val)) ∧
    (∀ l : Fin 3, (Reg.v .v0 l).offset.toNat = 0xC0 + 16 * vregIndex .v0 + 4 * l.val) ∧
    (∀ l : Fin 3, (Reg.v .v3 l).offset.toNat = 0xC0 + 16 * vregIndex .v3 + 4 * l.val) ∧
    (Reg.k 2 2).offset = 0x60#8 ∧ (Reg.r 2 2).offset = 0xA0#8 ∧ (Reg.v .v3 2).offset = 0xF8#8 := by decide

/-- The reserved ranges are exactly the aligned offsets that name no register, so no offset meets two clauses that differ;
their ends are 0x2C, 0x3C, 0x64, 0x7C, 0xA4, 0xBC, 0xCC and 0xFC. -/
theorem witness_reserved_ranges : ∀ off : Offset, off.toNat % 4 = 0 → (Reg.ofOffset off = .reserved ↔
    (0x2C ≤ off.toNat ∧ off.toNat ≤ 0x3C ∨ 0x64 ≤ off.toNat ∧ off.toNat ≤ 0x7C ∨
      0xA4 ≤ off.toNat ∧ off.toNat ≤ 0xBC ∨ (0xC0 ≤ off.toNat ∧ off.toNat % 16 = 12))) := by decide

/-- No two registers share an offset. -/
theorem witness_offsets_differ (a b : Reg) (h : a.offset = b.offset) : a = b := by
  rw [← ofOffset_offset a, h, ofOffset_offset]

/-- BusyReadsAreFreeOrExact: a register inside the write set, one outside, and an illegal word. -/
theorem witness_BusyReadsAreFreeOrExact : decode 0x40000000#32 = .command (.minv .k) ∧
    0x80 ∈ writtenOffsets (.minv .k) ∧ 0xA0 ∈ writtenOffsets (.minv .k) ∧ 0x7C ∉ writtenOffsets (.minv .k) ∧
    0xA4 ∉ writtenOffsets (.minv .k) ∧ 0x14 ∈ writtenOffsets (.setmod 2#8) ∧ 0xF8 ∈ writtenOffsets (.setmod 2#8) ∧
    0xFC ∉ writtenOffsets (.setmod 2#8) ∧
    decode 0xA0000000#32 = .illegal .reservedOpcode := by decide

/-- Writes to CTRL without and with SRST, and to STATUS. -/
theorem witness_CtrlWrites : (writeAt 0x08#8 0x7FFFFFFF#32).wdata.getLsbD 31 = false ∧
    (writeAt 0x08#8 0x80000003#32).wdata.getLsbD 31 = true ∧ (writeAt 0x0C#8 4#32).offset = 0x0C#8 := by decide

/-- PlatformPassesOnTheWindow: the first, the last and the next address. -/
theorem witness_PlatformPassesOnTheWindow : Config.base = Config.base + (0x00#8 : Offset).toNat ∧
    Config.base + 255 = Config.base + (0xFF#8 : Offset).toNat ∧ Config.base + 256 ≤ Config.base + 256 :=
  ⟨rfl, rfl, Nat.le_refl _⟩

/-- The pin driven low, driven high from low, and an access while it is low. -/
theorem witness_HardwareResetRestoresEveryRegister :
    ({ State.reset with rstN := false, inputs := [.rst true] } : State).rstN = false ∧
    ({ State.reset with rstN := false, inputs := [.bus (readAt 0#8)] } : State).nextAccess (readAt 0#8) :=
  ⟨rfl, .inl ⟨[], rfl⟩⟩

theorem witness_InterruptFollowsDoneAndErr : after (exec .nop { State.reset with ctrl := ⟨true, false⟩ })
    (fun t => t.irq) = some true ∧ loaded.status.err = false := by decide

/-- A SETMOD that changes MOD, and the soft reset that does. -/
theorem witness_ModulusChangesOnlyBySetmodOrReset :
    (loaded.withFetchWord 32 0x1000001A).engineNext ∧
    after (step (loaded.withFetchWord 32 0x1000001A)) (fun t => (t.modulus, t.pend)) = some (26#8, none) ∧
    after (step (access mod26 (writeAt 0x08#8 0x80000000#32))) (fun t => t.modulus) = some 36#8 :=
  ⟨.inr ⟨[], rfl⟩, by decide, by decide⟩

/-- MINV over another STATUS and CTRL: what it writes is the same, and ERR and SIV stay as they were (V-M3). -/
theorem witness_CommandsIgnoreStatusAndCtrl :
    after (exec (.minv .k) { loaded with status := ⟨false, true, false, true, false, .badFlag⟩, ctrl := ⟨true, true⟩ })
      (fun t => (t.det, t.r, t.status)) =
    some (31#8, mat 9 17 17 31 22 35 9 12 34, ⟨true, true, true, true, true, .badFlag⟩) := by decide

theorem witness_WritesStayInTheWriteSet : writeSet (.det .k) .inv = false ∧ Reg.inv ≠ .status ∧
    ∃ t, exec (.det .k) loaded = .next t := ⟨by decide, by decide, _, rfl⟩

/-- ERR stays over a NOP (V-C2), and is cleared by the write of V-B15. -/
theorem witness_ErrorIsSticky : (⟨true, true, false, false, false, .illegal⟩ : Status).err = true ∧
    (writeAt 0x0C#8 4#32).wdata.getLsbD 2 = true := by decide

/-- A busy read keeps the hazard; the statement's premise also holds with BUSY_WRITE reported before. -/
theorem witness_PoliteHostDropsNothing : ∃ s t : State, s.politeNext = true ∧ step s = .next t ∧
    t.status.errcode = .busyWrite :=
  ⟨access (busyWith { State.reset with status := ⟨false, true, false, false, false, .busyWrite⟩ } 0#32) (readAt 0x14#8), _,
    by decide, rfl, rfl⟩

/-- An impolite write, which R250 forbids. -/
theorem test_impolite : (access (busyWith loaded 0#32) (writeAt 0x20#8 9#32)).politeNext = false := by decide

theorem witness_RegistersChangeOnlyByWriteCompletionOrReset : ∃ t, step (access loaded (readAt 0x18#8)) = .next t :=
  ⟨_, rfl⟩

end Sys2Proof.Tests
end

section
/-! The scope of a command (O29, O50): the inverse SINV writes is the only one, and a register of the window outside a
command's write set reads after the completion as it did before. -/

namespace Sys2Proof.Machine

/-! ## The inverse is unique (R10, R152) -/

/-- No number below M but `inv_M(a)` gives 1 with a: a is coprime to M, so it cancels mod M. -/
theorem invM_unique {m a t : Residue} (h : invM m a = some t) {u : Nat} (hu : u < m.toNat)
    (hau : a.toNat * u % m.toNat = 1) : u = t.toNat := by
  obtain ⟨ht, hat, hcoprime⟩ := invM_eq_some h
  have hsame : a.toNat * u ≡ a.toNat * t.toNat [MOD m.toNat] := hau.trans hat.symm
  have hcancel : u ≡ t.toNat [MOD m.toNat] := hsame.cancel_left_of_coprime (by rwa [Nat.gcd_comm])
  exact hcancel.eq_of_lt_of_lt hu ht

/-- SINV sets SIV only where its operand has an inverse, and INV then holds it (R151). -/
theorem exec_sinv_siv {src : ScalarSrc} {a : Residue} {s t : State} (ha : s.scalar src = some a)
    (h : exec (.sinv src) s = .next t) (hsiv : t.status.siv = true) : invM s.modulus a = some t.inv := by
  cases hi : invM s.modulus a with
  | none =>
    cases (exec_sinv_none ha hi).symm.trans h
    exact absurd hsiv (by simp)
  | some x =>
    cases (exec_sinv_some ha hi).symm.trans h
    rfl

/-! ## What a named update leaves of the registers a host reads (R65) -/

section Reads

variable (s : State) {reg : Reg}

/-- Only the STATUS register reads STATUS and PEND. -/
theorem read_with_status (h : reg ≠ .status) (p : Option Word) (f : Status) :
    ({ s with pend := p, status := f } : State).read reg = s.read reg := by
  cases reg with
  | status => exact absurd rfl h
  | _ => rfl

theorem read_finish (h : reg ≠ .status) : s.finish.read reg = s.read reg := read_with_status s h _ _

theorem read_failed (h : reg ≠ .status) (c : ErrCode) : (s.failed c).read reg = s.read reg := read_with_status s h _ _

theorem read_setMiv (h : reg ≠ .status) (b : Bool) : (s.setMiv b).read reg = s.read reg := read_with_status s h _ _

theorem read_setSiv (h : reg ≠ .status) (b : Bool) : (s.setSiv b).read reg = s.read reg := read_with_status s h _ _

theorem read_setDet (h : reg ≠ .status) (hd : reg ≠ .det) (d : Residue) (b : Bool) :
    (s.setDet d b).read reg = s.read reg := by
  cases reg with
  | status => exact absurd rfl h
  | det => exact absurd rfl hd
  | _ => rfl

theorem read_with_inv (h : reg ≠ .inv) (x : Residue) : ({ s with inv := x } : State).read reg = s.read reg := by
  cases reg with
  | inv => exact absurd rfl h
  | _ => rfl

theorem read_with_r (h : reg.isResult = false) (x : Mat3 Residue) :
    ({ s with r := x } : State).read reg = s.read reg := by
  cases reg with
  | r i j => exact Bool.noConfusion h
  | _ => rfl

theorem read_setParity (hp : reg ≠ .pcnt) (ht : reg ≠ .tflag) (n : Nat) :
    (s.setParity n).read reg = s.read reg := by
  cases reg with
  | pcnt => exact absurd rfl hp
  | tflag => exact absurd rfl ht
  | _ => rfl

theorem read_setV {vd : VReg} (h : reg.isLaneOf vd = false) (x : Vec3 Residue) :
    (s.setV vd x).read reg = s.read reg := by
  cases reg with
  | v n l =>
    have hn : n ≠ vd := of_decide_eq_false h
    simp [State.read, VFile.get_set_ne s.v hn]
  | _ => rfl

theorem read_setModulus (h : reg ≠ .status) (hd : reg.isData = false) (m : Residue) :
    (s.setModulus m).read reg = s.read reg := by
  cases reg with
  | status => exact absurd rfl h
  | id | version | ctrl | cmd | reserved => rfl
  | modulus | det | inv | s | pcnt | tflag | k | r | v => exact Bool.noConfusion hd

end Reads

/-- However a command completes, a register outside its write set reads as before, STATUS apart (R15, R121). -/
theorem Completes.read_eq {i : Instr} {s t : State} (hc : Completes i s t) {reg : Reg} (hr : reg ≠ .status)
    (hw : writeSet i reg = false) : t.read reg = s.read reg := by
  cases hc with
  | failed => exact read_failed s hr _
  | nop => exact read_finish s hr
  | setmod => exact (read_finish _ hr).trans (read_setModulus s hr hw _)
  | det => exact (read_finish _ hr).trans (read_setDet s hr (of_decide_eq_false hw) _ _)
  | adj => exact (read_finish _ hr).trans (read_with_r s hw _)
  | minvNone =>
    obtain ⟨hdet, -⟩ := Bool.or_eq_false_iff.1 hw
    exact (read_finish _ hr).trans ((read_setMiv _ hr _).trans (read_setDet s hr (of_decide_eq_false hdet) _ _))
  | minvSome =>
    obtain ⟨hdet, hres⟩ := Bool.or_eq_false_iff.1 hw
    exact (read_finish _ hr).trans ((read_with_r _ hres _).trans
      ((read_setMiv _ hr _).trans (read_setDet s hr (of_decide_eq_false hdet) _ _)))
  | sinvNone => exact (read_finish _ hr).trans (read_setSiv s hr false)
  | sinvSome =>
    exact (read_finish _ hr).trans ((read_with_inv _ (of_decide_eq_false hw) _).trans (read_setSiv s hr _))
  | matvec => exact (read_finish _ hr).trans (read_setV s hw _)
  | parity =>
    obtain ⟨hp, ht⟩ := Bool.or_eq_false_iff.1 hw
    exact (read_finish _ hr).trans (read_setParity s (of_decide_eq_false hp) (of_decide_eq_false ht) _)
  | twist => exact (read_finish _ hr).trans (read_setV s hw _)
  | untwist => exact (read_finish _ hr).trans (read_setV s hw _)

/-- Settles O29: the operand is coprime to M wherever SINV sets SIV, so it has one inverse below M. -/
theorem sinvResultIsUnique : Obligations.SinvResultIsUnique := by
  intro src a s t _ ha h hsiv u hu hau
  exact invM_unique (exec_sinv_siv ha h hsiv) hu hau

/-- Settles O50, by the ways a command can complete. -/
theorem writesStayInTheWriteSet : Obligations.WritesStayInTheWriteSet := by
  intro i s t h reg hr hw
  exact (completes_of_exec h).read_eq hr hw

end Sys2Proof.Machine
end

section
/-! The state (O8 to O11, O41, O42, O48, O49, O51 to O53): what reset gives, what every step keeps, which command or access
writes MOD, the host's registers, the condition flags and ERR, and that a command looks at no bit of STATUS or CTRL. -/

namespace Sys2Proof.Machine

/-! ## What the units answer is below MOD (R8, R12) -/

section UnitBounds

variable {m : Residue} (hm : 2 ≤ m.toNat)
include hm

theorem detResidue_lt (a : Mat3 Residue) : (detResidue m a).toNat < m.toNat := reduce_lt hm _

theorem adjResidue_get_lt (a : Mat3 Residue) (i j : Fin 3) : ((adjResidue m a).get i j).toNat < m.toNat := by
  rw [adjResidue, Mat3.get_map]
  exact reduce_lt hm _

theorem scaledAdj_get_lt (a : Mat3 Residue) (t : Residue) (i j : Fin 3) :
    ((scaledAdj m a t).get i j).toNat < m.toNat := by
  rw [scaledAdj, Mat3.get_map]
  exact reduce_lt hm _

theorem mulVec_get_lt (a : Mat3 Residue) (x : Vec3 Residue) (l : Fin 3) : ((mulVec m a x).get l).toNat < m.toNat := by
  rw [mulVec, Vec3.get_ofFn]
  exact reduce_lt hm _

theorem twistLane_lt (o : TwistOp) (sc x : Residue) : (twistLane m o sc x).toNat < m.toNat := by
  cases o <;> exact reduce_lt hm _

theorem twistVec_get_lt (o : TwistOp) (sc : Residue) (x : Vec3 Residue) (l : Fin 3) :
    ((twistVec m o sc x).get l).toNat < m.toNat := by
  rw [twistVec_get]
  exact twistLane_lt hm o sc _

theorem untwistLane_lt {o : TwistOp} {sc x y : Residue} (h : untwistLane m o sc x = some y) : y.toNat < m.toNat := by
  cases o with
  | add | sub =>
    cases h
    exact reduce_lt hm _
  | mul =>
    obtain ⟨t, -, rfl⟩ := Option.map_eq_some_iff.1 h
    exact reduce_lt hm _

theorem untwistVec_get_lt {o : TwistOp} {sc : Residue} {x y : Vec3 Residue} (h : untwistVec m o sc x = some y)
    (l : Fin 3) : (y.get l).toNat < m.toNat :=
  untwistLane_lt hm (untwistVec_eq_some.1 h l)

end UnitBounds

/-! ## Which updates keep the residues below MOD (R37) -/

namespace State.Reduced

variable {s : State} (h : s.Reduced)
include h

/-- What is no residue register and not MOD is free. -/
theorem with_control {c : Ctrl} {f : Status} {p : Option Word} {n g : BitVec 2} {l : Bool} {e : List Event}
    {a : Option BusResponse} {d : Nat} :
    ({ s with ctrl := c, status := f, pend := p, pcnt := n, tflag := g, rstN := l, inputs := e, resp := a
              draws := d } : State).Reduced :=
  ⟨h.kBelow, h.rBelow, h.vBelow, h.sBelow, h.detBelow, h.invBelow⟩

theorem finish : s.finish.Reduced := h.with_control

theorem failed (c : ErrCode) : (s.failed c).Reduced := h.with_control

theorem respond (a : BusResponse) : (s.respond a).Reduced := h.with_control

theorem with_k {x : Mat3 Residue} (hx : ∀ i j, (x.get i j).toNat < s.modulus.toNat) :
    ({ s with k := x } : State).Reduced :=
  { h with kBelow := hx }

theorem with_r {x : Mat3 Residue} (hx : ∀ i j, (x.get i j).toNat < s.modulus.toNat) :
    ({ s with r := x } : State).Reduced :=
  { h with rBelow := hx }

theorem with_s {x : Residue} (hx : x.toNat < s.modulus.toNat) : ({ s with s := x } : State).Reduced :=
  { h with sBelow := hx }

theorem with_inv {x : Residue} (hx : x.toNat < s.modulus.toNat) : ({ s with inv := x } : State).Reduced :=
  { h with invBelow := hx }

theorem setDet {d : Residue} (hd : d.toNat < s.modulus.toNat) (b : Bool) : (s.setDet d b).Reduced :=
  ⟨h.kBelow, h.rBelow, h.vBelow, h.sBelow, hd, h.invBelow⟩

theorem setV (n : VReg) {x : Vec3 Residue} (hx : ∀ l, (x.get l).toNat < s.modulus.toNat) : (s.setV n x).Reduced := by
  refine { h with vBelow := fun n' l => ?_ }
  rw [State.setV_v, VFile.get_set]
  split
  · exact hx l
  · exact h.vBelow n' l

end State.Reduced

/-- Data that is all 0 lies below every legal modulus. -/
theorem reduced_of_zero {s : State} (hm : 2 ≤ s.modulus.toNat) (hk : s.k = zeroMat) (hr : s.r = zeroMat)
    (hv : s.v = zeroVFile) (hs : s.s = 0#8) (hd : s.det = 0#8) (hi : s.inv = 0#8) : s.Reduced := by
  have hpos : (0#8 : Residue).toNat < s.modulus.toNat := Nat.zero_lt_of_lt hm
  constructor
  · intro i j
    rwa [hk, zeroMat_get]
  · intro i j
    rwa [hr, zeroMat_get]
  · intro n l
    rwa [hv, zeroVFile_get, zeroVec_get]
  · rwa [hs]
  · rwa [hd]
  · rwa [hi]

theorem toReset_modLegal (s : State) : s.toReset.modLegal := show 2 ≤ (36#8).toNat by decide

theorem toReset_reduced (s : State) : s.toReset.Reduced :=
  reduced_of_zero (toReset_modLegal s) rfl rfl rfl rfl rfl rfl

theorem setModulus_reduced {m : Residue} (hm : 2 ≤ m.toNat) (s : State) : (s.setModulus m).Reduced :=
  reduced_of_zero hm rfl rfl rfl rfl rfl rfl

/-- A matrix with one entry replaced by a residue stays below the modulus. -/
theorem set_get_lt {m x : Residue} {a : Mat3 Residue} (ha : ∀ i j, (a.get i j).toNat < m.toNat)
    (hx : x.toNat < m.toNat) (i j i' j' : Fin 3) : ((a.set i j x).get i' j').toNat < m.toNat := by
  rw [Mat3.get_set]
  split
  · exact hx
  · exact ha i' j'

/-- A block with one lane replaced by a residue stays below the modulus. -/
theorem set_lane_lt {m x : Residue} {a : Vec3 Residue} (ha : ∀ l, (a.get l).toNat < m.toNat)
    (hx : x.toNat < m.toNat) (l l' : Fin 3) : ((a.set l x).get l').toNat < m.toNat := by
  rw [Vec3.get_set]
  split
  · exact hx
  · exact ha l'

/-! ## What a completion leaves (R121) -/

namespace Completes

variable {i : Instr} {s t : State} (hc : Completes i s t)
include hc

/-- What lies outside the engine's reach: CTRL, and what drives MDAE (R25). -/
theorem frame : t.ctrl = s.ctrl ∧ t.rstN = s.rstN ∧ t.inputs = s.inputs ∧ t.resp = s.resp ∧ t.draws = s.draws := by
  cases hc <;> exact ⟨rfl, rfl, rfl, rfl, rfl⟩

theorem rstN_eq : t.rstN = s.rstN := by
  obtain ⟨-, hr, -⟩ := hc.frame
  exact hr

theorem pend_eq : t.pend = none := by
  cases hc <;> rfl

/-- SETMOD apart, a command reads K, S and MOD only (R23, R28, R29). -/
theorem hostData_eq (hi : ∀ m, i ≠ .setmod m) : t.k = s.k ∧ t.s = s.s ∧ t.modulus = s.modulus := by
  cases hc with
  | setmod _ m => exact absurd rfl (hi m)
  | _ => exact ⟨rfl, rfl, rfl⟩

/-- MOD changes only by SETMOD, and to a legal modulus (R28, R124). -/
theorem modulus_cases : t.modulus = s.modulus ∨ ∃ m, i = .setmod m ∧ 2 ≤ m.toNat ∧ t.modulus = m := by
  cases hc with
  | setmod _ m hm => exact .inr ⟨m, rfl, hm, rfl⟩
  | _ => exact .inl rfl

/-- ERR and ERRCODE change only by failing, with a code that is not 0 (R211, R215). -/
theorem error_cases : (t.status.err = s.status.err ∧ t.status.errcode = s.status.errcode) ∨
    (t.status.err = true ∧ t.status.errcode ≠ .none) := by
  cases hc with
  | failed _ _ c hne => exact .inr ⟨rfl, hne⟩
  | _ => exact .inl ⟨rfl, rfl⟩

theorem modLegal (hm : s.modLegal) : t.modLegal := by
  unfold State.modLegal at hm ⊢
  obtain heq | ⟨m, -, hlegal, heq⟩ := hc.modulus_cases
  · rwa [heq]
  · rwa [heq]

/-- Every register a command writes gets a residue (R37). -/
theorem reduced (hm : s.modLegal) (h : s.Reduced) : t.Reduced := by
  cases hc with
  | failed _ _ c => exact h.failed c
  | nop => exact h.finish
  | setmod _ m hlegal => exact (setModulus_reduced hlegal s).finish
  | det _ m b => exact (h.setDet (detResidue_lt hm _) b).finish
  | adj _ m => exact (h.with_r (adjResidue_get_lt hm _)).finish
  | minvNone _ m => exact (h.setDet (detResidue_lt hm _) false).with_control
  | minvSome _ m u =>
    have hdet : ((s.setDet (detResidue s.modulus (s.matrix m)) true).setMiv true).Reduced :=
      (h.setDet (detResidue_lt hm _) true).with_control
    exact (hdet.with_r (scaledAdj_get_lt hm _ u)).finish
  | sinvNone => exact h.with_control
  | sinvSome _ src a u hu =>
    have hsiv : (s.setSiv true).Reduced := h.with_control
    obtain ⟨hlt, -⟩ := invM_eq_some hu
    exact (hsiv.with_inv hlt).finish
  | matvec _ vd vs m => exact (h.setV vd (mulVec_get_lt hm _ _)).finish
  | parity => exact h.with_control
  | twist _ vd vs op src o a => exact (h.setV vd (twistVec_get_lt hm o a _)).finish
  | untwist _ vd vs op src o a x hx => exact (h.setV vd (untwistVec_get_lt hm hx)).finish

/-! The writers of the condition flags (R35). -/

theorem cop_eq (hd : ∀ m, i ≠ .det m) (hv : ∀ m, i ≠ .minv m) (hs : ∀ m, i ≠ .setmod m) :
    t.status.cop = s.status.cop := by
  cases hc with
  | det _ m => exact absurd rfl (hd m)
  | minvNone _ m => exact absurd rfl (hv m)
  | minvSome _ m => exact absurd rfl (hv m)
  | setmod _ m => exact absurd rfl (hs m)
  | _ => rfl

theorem siv_eq (hv : ∀ src, i ≠ .sinv src) (hs : ∀ m, i ≠ .setmod m) : t.status.siv = s.status.siv := by
  cases hc with
  | sinvNone _ src => exact absurd rfl (hv src)
  | sinvSome _ src => exact absurd rfl (hv src)
  | setmod _ m => exact absurd rfl (hs m)
  | _ => rfl

theorem miv_eq (hv : ∀ m, i ≠ .minv m) (hs : ∀ m, i ≠ .setmod m) : t.status.miv = s.status.miv := by
  cases hc with
  | minvNone _ m => exact absurd rfl (hv m)
  | minvSome _ m => exact absurd rfl (hv m)
  | setmod _ m => exact absurd rfl (hs m)
  | _ => rfl

end Completes

theorem Completes.miv_eq_cop {m : MatSel} {s t : State} (hc : Completes (.minv m) s t) :
    t.status.miv = t.status.cop := by
  cases hc with
  | failed _ _ c _ _ hcan => exact Bool.noConfusion hcan
  | minvNone => rfl
  | minvSome => rfl

/-- A command with a cause of R210 answers the failed state, whatever the modulus. -/
theorem exec_of_commandFails {i : Instr} {s : State} {c : ErrCode} (h : commandFails i s c) :
    exec i s = .next (s.failed c) := by
  cases i with
  | nop | det | adj | minv | matvec | parity => exact h.elim
  | setmod m =>
    obtain ⟨rfl, hm⟩ := h
    exact exec_setmod_low hm s
  | sinv src =>
    obtain ⟨rfl, rfl⟩ := h
    exact exec_sinv_reserved s
  | twist vd vs op src =>
    obtain ⟨rfl, rfl⟩ | ⟨rfl, hs, hf⟩ := h
    · exact exec_twist_reserved vd vs op s
    · exact exec_twist_noFlag hs hf
  | untwist vd vs op src =>
    obtain ⟨rfl, rfl⟩ | ⟨rfl, hs, hf⟩ | ⟨rfl, hs, hmul, hu⟩ := h
    · exact exec_untwist_reserved vd vs op s
    · exact exec_untwist_noFlag hs hf
    · obtain ⟨a, ha⟩ := scalar_of_legal s hs
      have hnone : invM s.modulus a = none :=
        invM_of_not_coprime fun hg => hu ((scalarUnit_iff ha).2 ((isUnit_iff _ _).2 hg))
      exact exec_untwist_noninv ha (multiplies_iff.1 hmul) hnone

/-! ## What a host write does (R66 to R70) -/

/-- What a write to a register may leave behind: nothing changed, the write of its row, or a dropped write. -/
inductive WriteKind (s : State) (reg : Reg) (w : Word) : State → Prop
  | ignored : WriteKind s reg w s
  | enables (c : Ctrl) : WriteKind s reg w { s with ctrl := c }
  | softReset : WriteKind s reg w s.toReset
  | clears (hreg : reg = .status) : WriteKind s reg w (s.writeStatus w)
  | issued : WriteKind s reg w (s.issue w)
  | scalar : WriteKind s reg w { s with s := reduceWord s.modulus w }
  | flag (g : BitVec 2) : WriteKind s reg w { s with tflag := g }
  | key (i j : Fin 3) : WriteKind s reg w { s with k := s.k.set i j (reduceWord s.modulus w) }
  | result (i j : Fin 3) : WriteKind s reg w { s with r := s.r.set i j (reduceWord s.modulus w) }
  | lane (n : VReg) (l : Fin 3) : WriteKind s reg w (s.setV n ((s.v.get n).set l (reduceWord s.modulus w)))
  | dropped : WriteKind s reg w (s.raiseError .busyWrite)

theorem writeCtrl_reset {w : Word} (h : w.getLsbD 31 = true) (s : State) : s.writeCtrl w = s.toReset := by
  simp [State.writeCtrl, h]

theorem writeCtrl_enables {w : Word} (h : w.getLsbD 31 = false) (s : State) :
    s.writeCtrl w = { s with ctrl := ⟨w.getLsbD 0, w.getLsbD 1⟩ } := by
  rw [State.writeCtrl, h]
  rfl

theorem write_cases (s : State) (reg : Reg) (w : Word) : WriteKind s reg w (s.write reg w) := by
  cases reg with
  | id | version | modulus | det | inv | pcnt | reserved => exact .ignored
  | ctrl =>
    show WriteKind s .ctrl w (s.writeCtrl w)
    cases h : w.getLsbD 31 with
    | true =>
      rw [writeCtrl_reset h]
      exact .softReset
    | false =>
      rw [writeCtrl_enables h]
      exact .enables _
  | status => exact .clears rfl
  | cmd => exact .issued
  | s => exact .scalar
  | tflag => exact .flag _
  | k i j => exact .key i j
  | r i j => exact .result i j
  | v n l => exact .lane n l

theorem busWrite_cases (s : State) (reg : Reg) (w : Word) : WriteKind s reg w (s.busWrite reg w) := by
  unfold State.busWrite
  split
  · split
    · exact write_cases s reg w
    · exact .dropped
  · exact write_cases s reg w

namespace WriteKind

variable {s u : State} {reg : Reg} {w : Word} (hk : WriteKind s reg w u)
include hk

theorem rstN_eq : u.rstN = s.rstN := by
  cases hk with
  | clears => rw [writeStatus_eq]
  | _ => rfl

/-- No write reaches MOD but the soft reset (R28, R69, R241). -/
theorem modulus_cases : u.modulus = s.modulus ∨ u = s.toReset := by
  cases hk with
  | softReset => exact .inr rfl
  | clears => exact .inl (by rw [writeStatus_eq])
  | _ => exact .inl rfl

theorem modLegal (hm : s.modLegal) : u.modLegal := by
  obtain heq | rfl := hk.modulus_cases
  · unfold State.modLegal at hm ⊢
    rwa [heq]
  · exact toReset_modLegal s

/-- A residue register gets the word reduced (R67). -/
theorem reduced (hm : s.modLegal) (h : s.Reduced) : u.Reduced := by
  have hw : (reduceWord s.modulus w).toNat < s.modulus.toNat := reduceWord_lt hm w
  cases hk with
  | ignored => exact h
  | enables | issued | flag | dropped => exact h.with_control
  | softReset => exact toReset_reduced s
  | clears =>
    rw [writeStatus_eq]
    exact h.with_control
  | scalar => exact h.with_s hw
  | key i j => exact h.with_k (set_get_lt h.kBelow hw i j)
  | result i j => exact h.with_r (set_get_lt h.rBelow hw i j)
  | lane n l => exact h.setV n (set_lane_lt (h.vBelow n) hw l)

/-- A write leaves ERR and ERRCODE, or raises or clears both (R26, R212, R241). -/
theorem error_cases : (u.status.err = s.status.err ∧ u.status.errcode = s.status.errcode) ∨
    (u.status.err = true ∧ u.status.errcode ≠ .none) ∨
    (u.status.err = false ∧ u.status.errcode = .none ∧ (u = s.toReset ∨ (reg = .status ∧ w.getLsbD 2 = true))) := by
  cases hk with
  | dropped => exact .inr (.inl ⟨rfl, by simp⟩)
  | softReset => exact .inr (.inr ⟨rfl, rfl, .inl rfl⟩)
  | clears hreg =>
    rw [writeStatus_eq]
    cases hw : w.getLsbD 2 with
    | true => exact .inr (.inr ⟨by simp, by simp, .inr ⟨hreg, rfl⟩⟩)
    | false => exact .inl ⟨by simp, by simp⟩
  | _ => exact .inl ⟨rfl, rfl⟩

end WriteKind

/-! ## The invariant (R26, R28, R37, R240) -/

/-- ERRCODE = 0 exactly when ERR = 0 (R26, R210). -/
def State.codeMatches (s : State) : Prop := s.status.err = false ↔ s.status.errcode = .none

theorem codeMatches_of_eq {s t : State} (h : s.codeMatches)
    (heq : t.status.err = s.status.err ∧ t.status.errcode = s.status.errcode) : t.codeMatches := by
  obtain ⟨herr, hcode⟩ := heq
  unfold State.codeMatches
  rwa [herr, hcode]

theorem codeMatches_of_raised {t : State} (h : t.status.err = true ∧ t.status.errcode ≠ .none) : t.codeMatches := by
  obtain ⟨herr, hcode⟩ := h
  simp [State.codeMatches, herr, hcode]

theorem codeMatches_of_clear {t : State} (herr : t.status.err = false) (hcode : t.status.errcode = .none) :
    t.codeMatches := by
  simp [State.codeMatches, herr, hcode]

/-- Out of reset the invariant asks nothing of the reset values. -/
theorem inv_of_running {s : State} (hr : s.rstN = true) (hm : s.modLegal) (hred : s.Reduced) (hcode : s.codeMatches) :
    s.Inv :=
  ⟨hm, hred, hcode, fun h => absurd (hr.symm.trans h) (by decide)⟩

/-- Registers at their reset values meet the invariant, at either level of the pin. -/
theorem toReset_inv (s : State) : s.toReset.Inv :=
  ⟨toReset_modLegal s, toReset_reduced s, codeMatches_of_clear rfl rfl, fun _ => rfl⟩

theorem State.Inv.with_inputs {s : State} (h : s.Inv) (turns : List Event) : ({ s with inputs := turns } : State).Inv where
  modLegal := h.modLegal
  reduced := h.reduced.with_control
  noErrorNoCode := h.noErrorNoCode
  heldInReset hr := congrArg (fun u : State => { u with inputs := turns }) (h.heldInReset hr)

theorem State.Inv.popped {s : State} (h : s.Inv) : s.popped.Inv := h.with_inputs s.inputs.tail

theorem Completes.inv {i : Instr} {s t : State} (hc : Completes i s t) (hr : s.rstN = true) (h : s.Inv) : t.Inv := by
  have hcode : t.codeMatches := by
    obtain heq | hraised := hc.error_cases
    · exact codeMatches_of_eq h.noErrorNoCode heq
    · exact codeMatches_of_raised hraised
  exact inv_of_running (hc.rstN_eq.trans hr) (hc.modLegal h.modLegal) (hc.reduced h.modLegal h.reduced) hcode

theorem WriteKind.inv {s u : State} {reg : Reg} {w : Word} (hk : WriteKind s reg w u) (hr : s.rstN = true)
    (h : s.Inv) : u.Inv := by
  have hcode : u.codeMatches := by
    obtain heq | hraised | ⟨herr, hzero, -⟩ := hk.error_cases
    · exact codeMatches_of_eq h.noErrorNoCode heq
    · exact codeMatches_of_raised hraised
    · exact codeMatches_of_clear herr hzero
  exact inv_of_running (hk.rstN_eq.trans hr) (hk.modLegal h.modLegal) (hk.reduced h.modLegal h.reduced) hcode

theorem State.Inv.respond {s : State} (h : s.Inv) (hr : s.rstN = true) (a : BusResponse) : (s.respond a).Inv :=
  inv_of_running hr h.modLegal (h.reduced.respond a) h.noErrorNoCode

theorem step_inv {s t : State} (h : s.Inv) (hst : step s = .next t) : t.Inv := by
  have hp : s.popped.Inv := h.popped
  cases step_cases hst with
  | quiet ht => exact ht ▸ hp
  | answered q a hr _ ht => exact ht ▸ hp.respond hr a
  | written q a hr _ _ _ ht =>
    have hk := busWrite_cases s.popped (Reg.ofOffset q.offset) q.wdata
    exact ht ▸ (hk.inv hr hp).respond (hk.rstN_eq.trans hr) a
  | resetBy level ht => exact ht ▸ toReset_inv { s.popped with rstN := level }
  | completed w i hr _ _ _ _ hc => exact hc.inv hr hp
  | illegal w why hr _ _ _ ht =>
    have hraised : (s.popped.failed .illegal).codeMatches := codeMatches_of_raised ⟨rfl, by simp⟩
    exact ht ▸ inv_of_running hr hp.modLegal (hp.reduced.failed .illegal) hraised

theorem reset_inv : State.reset.Inv := toReset_inv State.reset

/-- What every step keeps holds after a run. -/
theorem run_keeps {P : State → Prop} (hstep : ∀ s t, P s → step s = .next t → P t) (n : Nat) {s t : State} (hs : P s)
    (h : Host.Core.run Sys2Proof.core n s = .next t) : P t := by
  induction n generalizing s with
  | zero =>
    cases (run_zero s).symm.trans h
    exact hs
  | succ n ih =>
    obtain ⟨u, hu, hrest⟩ := run_succ_next h
    exact ih (hstep s u hs hu) hrest

/-- Settles O10: each kind of step keeps the four properties. -/
theorem stepKeepsTheInvariant : Obligations.StepKeepsTheInvariant := fun _ _ => step_inv

/-- Settles O9. -/
theorem resetMeetsTheInvariant : Obligations.ResetMeetsTheInvariant := reset_inv

/-- Settles O11, by the invariant of O10 along the run; PCNT and TFLAG are two bits wide. -/
theorem reachableResiduesBelowModulus : Obligations.ReachableResiduesBelowModulus := by
  intro turns n t h
  have hinv : t.Inv := run_keeps (fun _ _ => step_inv) n (reset_inv.with_inputs turns) h
  exact ⟨hinv.reduced, Nat.le_of_lt_succ t.pcnt.isLt, Nat.le_of_lt_succ t.tflag.isLt⟩

/-- Settles O8. -/
theorem resetValues : Obligations.ResetValues := by
  have hv (n : VReg) (l : Fin 3) : (State.reset.v.get n).get l = 0#8 := by simp
  exact ⟨rfl, rfl, by decide, by decide, rfl, rfl, zeroMat_get, zeroMat_get, hv, rfl, rfl, rfl, rfl, rfl, rfl⟩

/-! ## MOD and ERR along a step (R26, R28) -/

/-- Settles O48, by the kinds of a step: of the writes only the soft reset reaches MOD, of the commands only SETMOD. -/
theorem modulusChangesOnlyBySetmodOrReset : Obligations.ModulusChangesOnlyBySetmodOrReset := by
  intro s t hst
  cases step_cases hst with
  | quiet ht => exact .inl (ht ▸ rfl)
  | answered q a _ _ ht => exact .inl (ht ▸ rfl)
  | written q a _ _ _ _ ht =>
    subst ht
    obtain heq | heq := (busWrite_cases s.popped (Reg.ofOffset q.offset) q.wdata).modulus_cases
    · exact .inl heq
    · rw [heq]
      exact .inr (.inr rfl)
  | resetBy level ht =>
    subst ht
    exact .inr (.inr rfl)
  | completed w i _ hn hp hd _ hc =>
    obtain heq | ⟨m, rfl, hm, heq⟩ := hc.modulus_cases
    · exact .inl heq
    · exact .inr (.inl ⟨w, m, hp, hn, hd, hm, hc.pend_eq, heq⟩)
  | illegal w why _ _ _ _ ht => exact .inl (ht ▸ rfl)

theorem ofOffset_eq_status {off : Offset} : Reg.ofOffset off = .status ↔ off = 0x0C#8 := by
  revert off
  decide

/-- Settles O53, by the kinds of a step: a completion leaves ERR or sets it, and of the writes only that of STATUS bit 2
and the soft reset clear it. -/
theorem errorIsSticky : Obligations.ErrorIsSticky := by
  intro s t hst herr
  cases step_cases hst with
  | quiet ht => exact .inl (ht ▸ herr)
  | answered q a _ _ ht => exact .inl (ht ▸ herr)
  | written q a _ hq ha hw ht =>
    subst ht
    obtain ⟨heq, -⟩ | ⟨hset, -⟩ | ⟨-, hcode, heq | ⟨hreg, hbit⟩⟩ :=
      (busWrite_cases s.popped (Reg.ofOffset q.offset) q.wdata).error_cases
    · exact .inl (heq.trans herr)
    · exact .inl hset
    · rw [heq]
      exact .inr (.inr rfl)
    · obtain ⟨hsize, -⟩ := (admitted_iff q).1 ha
      exact .inr (.inl ⟨q, hq, hw, hsize, ofOffset_eq_status.1 hreg, hbit, hcode⟩)
  | resetBy level ht =>
    subst ht
    exact .inr (.inr rfl)
  | completed w i _ _ _ _ _ hc =>
    obtain ⟨heq, -⟩ | ⟨hset, -⟩ := hc.error_cases
    · exact .inl (heq.trans herr)
    · exact .inl hset
  | illegal w why _ _ _ _ ht => exact .inl (ht ▸ rfl)

/-! ## What commands leave alone (R25, R35) -/

/-- Settles O49, by the ways a command can complete. -/
theorem commandsLeaveHostRegistersAlone : Obligations.CommandsLeaveHostRegistersAlone := by
  intro i s t h
  have hc := completes_of_exec h
  obtain ⟨hctrl, hrst, hin, hresp, hdraws⟩ := hc.frame
  exact ⟨hctrl, hrst, hin, hresp, hdraws, hc.hostData_eq⟩

/-- Settles O51, by the ways a command can complete; a command with a cause of R210 leaves the failed state. -/
theorem conditionFlagsHaveTheirWriters : Obligations.ConditionFlagsHaveTheirWriters := by
  intro i s t h
  have hc := completes_of_exec h
  refine ⟨hc.cop_eq, hc.siv_eq, hc.miv_eq, ?_, ?_⟩
  · rintro ⟨m, rfl⟩
    exact hc.miv_eq_cop
  · rintro ⟨c, hf⟩
    cases (exec_of_commandFails hf).symm.trans h
    exact ⟨rfl, rfl, rfl⟩

/-! ## What commands do not look at (R35, R121, R215) -/

/-- The state under another STATUS and CTRL. -/
def State.withHost (s : State) (f : Status) (c : Ctrl) : State := { s with status := f, ctrl := c }

/-- The state after a command's writes to STATUS: a field it writes has its one value, another stays as it was. -/
def State.statusWritten (t : State) (err cop siv miv : Option Bool) (code : Option ErrCode) (f : Status) (c : Ctrl) :
    State :=
  { t with
    ctrl := c
    status :=
      { done := true, err := err.getD f.err, cop := cop.getD f.cop, siv := siv.getD f.siv, miv := miv.getD f.miv
        errcode := code.getD f.errcode } }

/-- The command answers one next state and one set of STATUS writes, whatever STATUS and CTRL hold. -/
def IgnoresStatusAndCtrl (i : Instr) (s : State) : Prop :=
  ∃ (t : State) (err cop siv miv : Option Bool) (code : Option ErrCode),
    ∀ (f : Status) (c : Ctrl), exec i (s.withHost f c) = .next (t.statusWritten err cop siv miv code f c)

theorem ne_reserved_of_scalar {s : State} {src : ScalarSrc} {a : Residue} (ha : s.scalar src = some a) :
    src ≠ .reserved := fun h => by simp [scalar_ne_none.2 h] at ha

/-- A command that fails writes ERR and ERRCODE. -/
theorem ignores_of_failed {i : Instr} {s : State} {code : ErrCode}
    (h : ∀ f c, exec i (s.withHost f c) = .next ((s.withHost f c).failed code)) : IgnoresStatusAndCtrl i s :=
  ⟨s.failed code, some true, none, none, none, some code, h⟩

theorem setmod_ignores (m : BitVec 8) (s : State) : IgnoresStatusAndCtrl (.setmod m) s := by
  by_cases hm : m.toNat < 2
  · exact ignores_of_failed fun _ _ => exec_setmod_low hm _
  · exact ⟨(s.setModulus m).finish, none, some false, some false, some false, none,
      fun _ _ => exec_setmod_legal (Nat.not_lt.1 hm) _⟩

theorem det_ignores (m : MatSel) (s : State) : IgnoresStatusAndCtrl (.det m) s :=
  ⟨(s.setDet (detResidue s.modulus (s.matrix m)) false).finish, none,
    some (copOf s.modulus (detResidue s.modulus (s.matrix m))), none, none, none, fun _ _ => exec_det m _⟩

theorem minv_ignores (m : MatSel) (s : State) : IgnoresStatusAndCtrl (.minv m) s := by
  cases hd : invM s.modulus (detResidue s.modulus (s.matrix m)) with
  | none =>
    exact ⟨(s.setDet (detResidue s.modulus (s.matrix m)) false).finish, none, some false, none, some false, none,
      fun _ _ => exec_minv_none hd⟩
  | some u =>
    exact ⟨{ (s.setDet (detResidue s.modulus (s.matrix m)) true).finish with r := scaledAdj s.modulus (s.matrix m) u },
      none, some true, none, some true, none, fun _ _ => exec_minv_some hd⟩

theorem sinv_ignores (src : ScalarSrc) (s : State) : IgnoresStatusAndCtrl (.sinv src) s := by
  cases ha : s.scalar src with
  | none =>
    cases scalar_ne_none.1 ha
    exact ignores_of_failed fun _ _ => exec_sinv_reserved _
  | some a =>
    cases hi : invM s.modulus a with
    | none => exact ⟨s.finish, none, none, some false, none, none, fun _ _ => exec_sinv_none ha hi⟩
    | some u =>
      exact ⟨{ s.finish with inv := u }, none, none, some true, none, none, fun _ _ => exec_sinv_some ha hi⟩

theorem twist_ignores (vd vs : VReg) (op : OpSel) (src : ScalarSrc) (s : State) :
    IgnoresStatusAndCtrl (.twist vd vs op src) s := by
  cases ha : s.scalar src with
  | none =>
    cases scalar_ne_none.1 ha
    exact ignores_of_failed fun _ _ => exec_twist_reserved vd vs op _
  | some a =>
    have hs : src ≠ .reserved := ne_reserved_of_scalar ha
    cases ho : effOp op s.tflag with
    | none => exact ignores_of_failed fun _ _ => exec_twist_noFlag hs (effOp_eq_none.1 ho)
    | some o =>
      exact ⟨(s.setV vd (twistVec s.modulus o a (s.v.get vs))).finish, none, none, none, none, none,
        fun _ _ => exec_twist_ok ha ho⟩

theorem untwist_ignores (vd vs : VReg) (op : OpSel) (src : ScalarSrc) (s : State) :
    IgnoresStatusAndCtrl (.untwist vd vs op src) s := by
  cases ha : s.scalar src with
  | none =>
    cases scalar_ne_none.1 ha
    exact ignores_of_failed fun _ _ => exec_untwist_reserved vd vs op _
  | some a =>
    have hs : src ≠ .reserved := ne_reserved_of_scalar ha
    cases ho : effOp op s.tflag with
    | none => exact ignores_of_failed fun _ _ => exec_untwist_noFlag hs (effOp_eq_none.1 ho)
    | some o =>
      cases hx : untwistVec s.modulus o a (s.v.get vs) with
      | none =>
        obtain ⟨rfl, hi⟩ := untwistVec_eq_none.1 hx
        exact ignores_of_failed fun _ _ => exec_untwist_noninv ha ho hi
      | some x =>
        exact ⟨(s.setV vd x).finish, none, none, none, none, none, fun _ _ => exec_untwist_ok ha ho hx⟩

/-- Settles O52, command by command: no case of a command asks for a bit of STATUS or CTRL. -/
theorem commandsIgnoreStatusAndCtrl : Obligations.CommandsIgnoreStatusAndCtrl := by
  intro i s
  show IgnoresStatusAndCtrl i s
  cases i with
  | nop => exact ⟨s.finish, none, none, none, none, none, fun _ _ => exec_nop _⟩
  | setmod m => exact setmod_ignores m s
  | det m => exact det_ignores m s
  | adj m =>
    exact ⟨({ s with r := adjResidue s.modulus (s.matrix m) } : State).finish, none, none, none, none, none,
      fun _ _ => exec_adj m _⟩
  | minv m => exact minv_ignores m s
  | sinv src => exact sinv_ignores src s
  | matvec vd m vs =>
    exact ⟨(s.setV vd (mulVec s.modulus (s.matrix m) (s.v.get vs))).finish, none, none, none, none, none,
      fun _ _ => exec_matvec vd vs m _⟩
  | parity vs =>
    exact ⟨(s.setParity (evenCount (s.v.get vs))).finish, none, none, none, none, none, fun _ _ => exec_parity vs _⟩
  | twist vd vs op src => exact twist_ignores vd vs op src s
  | untwist vd vs op src => exact untwist_ignores vd vs op src s

/-! ## Writes to STATUS and CTRL (R25, R26) -/

/-- Out of reset an aligned 32-bit write is made, and answered with err = 0 (R63, R66). -/
theorem step_write {s : State} {q : BusRequest} (hr : s.rstN = true) (hq : s.nextAccess q) (hw : q.write = true)
    (hsize : q.size = .word) (halign : q.offset.toNat % 4 = 0) :
    step s = .next ((s.popped.busWrite (Reg.ofOffset q.offset) q.wdata).respond ⟨s.draw, false⟩) :=
  (step_access hq).trans (busTurn_write (s := s.popped) hr ((admitted_iff q).2 ⟨hsize, halign⟩) hw)

/-- Settles O41. -/
theorem statusWriteClearsOnes : Obligations.StatusWriteClearsOnes := by
  intro s q hr hq hw hsize hoff
  have hreg : Reg.ofOffset q.offset = .status := ofOffset_eq_status.2 hoff
  refine ⟨⟨s.draw, false⟩, rfl, (step_write hr hq hw hsize (hoff ▸ rfl)).trans ?_⟩
  rw [hreg, busWrite_status, writeStatus_eq]
  rfl

/-- Settles O42. -/
theorem ctrlWriteStoresTheEnables : Obligations.CtrlWriteStoresTheEnables := by
  intro s q hr hq hw hsize hoff hbit
  have hreg : Reg.ofOffset q.offset = .ctrl := hoff ▸ ofOffset_offset .ctrl
  refine ⟨⟨s.draw, false⟩, rfl, (step_write hr hq hw hsize (hoff ▸ rfl)).trans ?_⟩
  rw [hreg, busWrite_ctrl, writeCtrl_enables hbit]
  rfl

end Sys2Proof.Machine
end

section
/-! The memory window (O12, O16, O34 to O40, O44, O45, O54, O56): what an access at MDAE's port answers and writes, idle
and busy, how the platform passes it on, and that a pending command comes to its end. -/

namespace Sys2Proof.Machine

/-! ## The registers of the map (R62) -/

theorem ofOffset_of_toNat {off : Offset} {reg : Reg} (h : off.toNat = reg.offset.toNat) : Reg.ofOffset off = reg := by
  rw [BitVec.eq_of_toNat_eq h, ofOffset_offset]

theorem ofOffset_eq_ctrl {off : Offset} : Reg.ofOffset off = .ctrl ↔ off = 0x08#8 := by
  revert off
  decide

/-- The aligned offsets between the rows of R62. -/
abbrev reservedOffset (off : Offset) : Prop :=
  0x2C ≤ off.toNat ∧ off.toNat ≤ 0x3C ∨ 0x64 ≤ off.toNat ∧ off.toNat ≤ 0x7C ∨
    0xA4 ≤ off.toNat ∧ off.toNat ≤ 0xBC ∨ (0xC0 ≤ off.toNat ∧ off.toNat % 16 = 12)

theorem ofOffset_reserved {off : Offset} (halign : off.toNat % 4 = 0) (h : reservedOffset off) :
    Reg.ofOffset off = .reserved := by
  revert off
  decide

/-- The registers whose row of R62 takes no write (R66). -/
def readOnlyRegs : List Reg := [.id, .version, .modulus, .det, .inv, .pcnt, .reserved]

theorem ofOffset_readOnly {off : Offset} (halign : off.toNat % 4 = 0)
    (h : off.toNat ≤ 0x04 ∨ 0x14 ≤ off.toNat ∧ off.toNat ≤ 0x1C ∨ off.toNat = 0x24 ∨ reservedOffset off) :
    Reg.ofOffset off ∈ readOnlyRegs := by
  revert off
  decide

theorem write_readOnly {reg : Reg} (h : reg ∈ readOnlyRegs) (s : State) (w : Word) : s.write reg w = s := by
  cases reg with
  | id | version | modulus | det | inv | pcnt | reserved => rfl
  | ctrl | status | cmd | s | tflag | k | r | v => simp [readOnlyRegs] at h

/-! ## CTRL and STATUS as words (R25, R26) -/

theorem ctrlWord_toNat (s : State) : s.ctrlWord.toNat = s.ctrl.ieDone.toNat + 2 * s.ctrl.ieErr.toNat := by
  simp only [State.ctrlWord, append_toNat, BitVec.toNat_ofBool, BitVec.toNat_ofNat]
  omega

theorem packStatus_toNat (results : BitVec 8) (progress : BitVec 3) :
    (packStatus results progress).toNat = 16 * results.toNat + progress.toNat := by
  simp only [packStatus, append_toNat, BitVec.toNat_ofNat]
  omega

theorem statusWord_toNat {s : State} (h : s.pend = none) : s.statusWord.toNat =
    2 * s.status.done.toNat + 4 * s.status.err.toNat + 16 * s.status.cop.toNat + 32 * s.status.siv.toNat
      + 64 * s.status.miv.toNat + 256 * s.status.errcode.code.toNat := by
  simp only [State.statusWord, packStatus_toNat, State.statusResults, State.statusProgress, append_toNat,
    BitVec.toNat_ofBool, BitVec.toNat_ofNat, busy_eq_false.2 h, Bool.toNat_false]
  omega

/-- Bits [2:0] of a STATUS word are its progress bits. -/
theorem packStatus_getLsbD_low (results : BitVec 8) (progress : BitVec 3) {i : Nat} (hi : i < 3) :
    (packStatus results progress).getLsbD i = progress.getLsbD i := by
  simp only [packStatus, BitVec.getLsbD_append, hi, if_true]

theorem packStatus_bit3 (results : BitVec 8) (progress : BitVec 3) :
    (packStatus results progress).getLsbD 3 = false := by
  simp only [packStatus, BitVec.getLsbD_append]
  rfl

theorem packStatus_results (results : BitVec 8) (progress : BitVec 3) :
    (packStatus results progress).extractLsb' 4 8 = results := by
  rw [extract_eq_iff, packStatus_toNat]
  omega

theorem packStatus_high (results : BitVec 8) (progress : BitVec 3) :
    (packStatus results progress).extractLsb' 12 20 = 0#20 := by
  rw [extract_eq_iff, packStatus_toNat, BitVec.toNat_ofNat]
  omega

theorem threeBits_getLsbD (a b c : Bool) : (BitVec.ofBool a ++ BitVec.ofBool b ++ BitVec.ofBool c).getLsbD 0 = c ∧
    (BitVec.ofBool a ++ BitVec.ofBool b ++ BitVec.ofBool c).getLsbD 1 = b ∧
    (BitVec.ofBool a ++ BitVec.ofBool b ++ BitVec.ofBool c).getLsbD 2 = a := by
  revert a b c
  decide

/-- BUSY, DONE and ERR stand in the low bits of a STATUS word, whatever its other bits (R26). -/
theorem packStatus_progress (s : State) (results : BitVec 8) :
    (packStatus results s.statusProgress).getLsbD 0 = s.busy ∧
    (packStatus results s.statusProgress).getLsbD 1 = s.status.done ∧
    (packStatus results s.statusProgress).getLsbD 2 = s.status.err := by
  rw [packStatus_getLsbD_low _ _ (by decide), packStatus_getLsbD_low _ _ (by decide),
    packStatus_getLsbD_low _ _ (by decide)]
  exact threeBits_getLsbD s.status.err s.status.done s.busy

/-! ## One access (R61, R63, R65, R70) -/

theorem not_admitted {q : BusRequest} (h : q.size ≠ .word ∨ q.offset.toNat % 4 ≠ 0) : q.admitted = false := by
  rw [← Bool.not_eq_true, admitted_iff]
  exact not_and_or.2 h

section Access

variable {s : State} {q : BusRequest} (hr : s.rstN = true) (hq : s.nextAccess q)
include hr hq

theorem step_refused (ha : q.admitted = false) :
    step s = .next (s.popped.respond ⟨if q.write then s.draw else 0#32, true⟩) :=
  (step_access hq).trans (busTurn_refused (s := s.popped) hr ha)

theorem step_read (hw : q.write = false) (hsize : q.size = .word) (halign : q.offset.toNat % 4 = 0) :
    step s = .next (s.popped.respond ⟨s.popped.busRead (Reg.ofOffset q.offset), false⟩) :=
  (step_access hq).trans (busTurn_read (s := s.popped) hr ((admitted_iff q).2 ⟨hsize, halign⟩) hw)

theorem step_read_idle (hp : s.pend = none) (hw : q.write = false) (hsize : q.size = .word)
    (halign : q.offset.toNat % 4 = 0) :
    step s = .next (s.popped.respond ⟨s.popped.read (Reg.ofOffset q.offset), false⟩) := by
  rw [step_read hr hq hw hsize halign, busRead_idle (s := s.popped) hp]

theorem step_write_idle (hp : s.pend = none) (hw : q.write = true) (hsize : q.size = .word)
    (halign : q.offset.toNat % 4 = 0) :
    step s = .next ((s.popped.write (Reg.ofOffset q.offset) q.wdata).respond ⟨s.draw, false⟩) := by
  rw [step_write hr hq hw hsize halign, busWrite_idle (s := s.popped) hp]

/-- R70: out of CTRL and STATUS a busy write is dropped with BUSY_WRITE. -/
theorem step_write_dropped {p : Word} (hp : s.pend = some p) (hw : q.write = true) (hsize : q.size = .word)
    (halign : q.offset.toNat % 4 = 0) (hctrl : q.offset ≠ 0x08#8) (hstatus : q.offset ≠ 0x0C#8) :
    step s = .next ((s.popped.raiseError .busyWrite).respond ⟨s.draw, false⟩) := by
  rw [step_write hr hq hw hsize halign, busWrite_dropped (s := s.popped) hp (mt ofOffset_eq_ctrl.1 hctrl)
    (mt ofOffset_eq_status.1 hstatus)]

end Access

/-! ## Reads (R63, R65, R71, R72) -/

/-- Settles O34: by whether R63 admits the access, and by its direction. -/
theorem refusedAccessAnswersError : Obligations.RefusedAccessAnswersError := by
  intro s q hr hq
  constructor
  · intro hbad
    refine ⟨⟨if q.write then s.draw else 0#32, true⟩, step_refused hr hq (not_admitted hbad), rfl, fun hw => ?_⟩
    simp [hw]
  · intro hsize halign
    cases hw : q.write with
    | true => exact ⟨_, _, step_write hr hq hw hsize halign, rfl, rfl⟩
    | false => exact ⟨_, _, step_read hr hq hw hsize halign, rfl, rfl⟩

/-- Settles O36: a read is answered or refused, and either only responds. -/
theorem readsChangeNothing : Obligations.ReadsChangeNothing := by
  intro s q hr hq hw
  by_cases h : q.size = .word ∧ q.offset.toNat % 4 = 0
  · obtain ⟨hsize, halign⟩ := h
    exact ⟨_, step_read hr hq hw hsize halign⟩
  · exact ⟨_, step_refused hr hq (not_admitted (not_and_or.1 h))⟩

/-- A register whose row of R62 is a zero-extended field reads as that number. -/
theorem read_zeroExtended {s : State} {off : Offset} {reg : Reg} {n : Nat} {x : BitVec n}
    (hreg : Reg.ofOffset off = reg) (hread : s.read reg = x.setWidth 32) (hn : n ≤ 32) :
    (s.read (Reg.ofOffset off)).toNat = x.toNat := by
  rw [hreg, hread, BitVec.toNat_setWidth_of_le hn]

/-- Settles O35: the offset names its register of R62, and that register reads as R65 says. -/
theorem idleReadsFollowTheMap : Obligations.IdleReadsFollowTheMap := by
  intro s q hr hp hq hw hsize halign
  refine ⟨s.popped.read (Reg.ofOffset q.offset), step_read_idle hr hq hp hw hsize halign,
    ?id, ?version, ?ctrl, ?status, ?cmd, ?modulus, ?det, ?inv, ?s, ?pcnt, ?tflag, ?key, ?result, ?lane, ?reserved⟩
  case id => exact fun h => congrArg s.popped.read (ofOffset_of_toNat (reg := .id) h)
  case version => exact fun h => congrArg s.popped.read (ofOffset_of_toNat (reg := .version) h)
  case ctrl =>
    intro h
    rw [ofOffset_of_toNat (reg := .ctrl) h]
    exact ctrlWord_toNat s.popped
  case status =>
    intro h
    rw [ofOffset_of_toNat (reg := .status) h]
    exact statusWord_toNat (s := s.popped) hp
  case cmd => exact fun h => congrArg s.popped.read (ofOffset_of_toNat (reg := .cmd) h)
  case modulus => exact fun h => read_zeroExtended (ofOffset_of_toNat (reg := .modulus) h) rfl (by decide)
  case det => exact fun h => read_zeroExtended (ofOffset_of_toNat (reg := .det) h) rfl (by decide)
  case inv => exact fun h => read_zeroExtended (ofOffset_of_toNat (reg := .inv) h) rfl (by decide)
  case s => exact fun h => read_zeroExtended (ofOffset_of_toNat (reg := .s) h) rfl (by decide)
  case pcnt => exact fun h => read_zeroExtended (ofOffset_of_toNat (reg := .pcnt) h) rfl (by decide)
  case tflag => exact fun h => read_zeroExtended (ofOffset_of_toNat (reg := .tflag) h) rfl (by decide)
  case key => exact fun i j h => read_zeroExtended (ofOffset_key h) rfl (by decide)
  case result => exact fun i j h => read_zeroExtended (ofOffset_result h) rfl (by decide)
  case lane => exact fun n l h => read_zeroExtended (ofOffset_vector h) rfl (by decide)
  case reserved => exact fun h => congrArg s.popped.read (ofOffset_reserved halign h)

theorem wordWriteSet_command {p : Word} {i : Instr} (h : decode p = .command i) (reg : Reg) :
    wordWriteSet p reg = writeSet i reg := by
  simp [wordWriteSet, h]

theorem wordWriteSet_illegal {p : Word} {why : IllegalReason} (h : decode p = .illegal why) (reg : Reg) :
    wordWriteSet p reg = false := by
  simp [wordWriteSet, h]

theorem busRead_status_busy {s : State} {p : Word} (h : s.pend = some p) :
    s.busRead .status = packStatus (s.draw.extractLsb' 4 8) s.statusProgress := by
  simp [State.busRead, h]

/-- Settles O37: STATUS bit by bit, and another register by whether it lies in the write set of the pending word. -/
theorem busyReadsAreFreeOrExact : Obligations.BusyReadsAreFreeOrExact := by
  intro s q p hr hp hq hw hsize halign
  have hidle := step_read_idle (s := { s with pend := none }) hr hq rfl hw hsize halign
  have hexact (hne : q.offset ≠ 0x0C#8) (hfree : wordWriteSet p (Reg.ofOffset q.offset) = false) :
      s.popped.busRead (Reg.ofOffset q.offset) =
        ({ s with pend := none } : State).popped.read (Reg.ofOffset q.offset) := by
    have hreg : Reg.ofOffset q.offset ≠ .status := mt ofOffset_eq_status.1 hne
    rw [busRead_busy (s := s.popped) hp hreg, hfree]
    exact (read_pend (s := s.popped) hreg none).symm
  refine ⟨s.popped.busRead (Reg.ofOffset q.offset), _, step_read hr hq hw hsize halign, hidle, ?_, ?_, ?_⟩
  · intro hoff
    rw [ofOffset_eq_status.2 hoff, busRead_status_busy (s := s.popped) hp]
    obtain ⟨hbusy, hdone, herr⟩ := packStatus_progress s.popped (s.popped.draw.extractLsb' 4 8)
    exact ⟨hbusy.trans (busy_eq_true.2 ⟨p, hp⟩), hdone, herr, packStatus_bit3 _ _, packStatus_results _ _,
      packStatus_high _ _⟩
  · intro i hd hne
    constructor
    · intro hin
      have hfree : wordWriteSet p (Reg.ofOffset q.offset) = true :=
        (wordWriteSet_command hd _).trans ((writeSet_ofOffset i q.offset).2 hin)
      rw [busRead_busy (s := s.popped) hp (mt ofOffset_eq_status.1 hne), if_pos hfree]
      rfl
    · intro hout
      refine hexact hne ((wordWriteSet_command hd _).trans ?_)
      exact Bool.eq_false_iff.2 (mt (writeSet_ofOffset i q.offset).1 hout)
  · intro why hd hne
    exact hexact hne (wordWriteSet_illegal hd _)

/-! ## Writes (R66 to R68, R70, R120) -/

theorem writeCtrl_cases (s : State) (w : Word) :
    s.writeCtrl w = s.toReset ∨ ∃ c, s.writeCtrl w = { s with ctrl := c } := by
  cases h : w.getLsbD 31 with
  | true => exact .inl (writeCtrl_reset h s)
  | false => exact .inr ⟨_, writeCtrl_enables h s⟩

/-- Settles O12. -/
theorem issueMakesTheWordPending : Obligations.IssueMakesTheWordPending := by
  intro s q hr hq hw hsize hoff
  have halign : q.offset.toNat % 4 = 0 := hoff ▸ rfl
  have hreg : Reg.ofOffset q.offset = .cmd := hoff ▸ ofOffset_offset .cmd
  refine ⟨⟨s.draw, false⟩, rfl, fun hp => ?_, fun hp => ?_⟩
  · rw [step_write_idle hr hq hp hw hsize halign, hreg]
    rfl
  · obtain ⟨p, hp⟩ := Option.ne_none_iff_exists'.1 hp
    exact step_write_dropped hr hq hp hw hsize halign (hoff ▸ by decide) (hoff ▸ by decide)

/-- Settles O40. -/
theorem readOnlyAndReservedWritesAreIgnored : Obligations.ReadOnlyAndReservedWritesAreIgnored := by
  intro s q hr hp hq hw hsize halign hoff
  refine ⟨⟨s.draw, false⟩, (step_write_idle hr hq hp hw hsize halign).trans ?_, rfl⟩
  rw [write_readOnly (ofOffset_readOnly halign hoff)]
  rfl

/-- Settles O39. -/
theorem tflagWriteStoresTwoBits : Obligations.TflagWriteStoresTwoBits := by
  intro s q hr hp hq hw hsize hoff
  have hreg : Reg.ofOffset q.offset = .tflag := hoff ▸ ofOffset_offset .tflag
  have hstep := step_write_idle hr hq hp hw hsize (hoff ▸ rfl)
  rw [hreg] at hstep
  refine ⟨_, ⟨s.draw, false⟩, hstep, rfl, rfl, ?_⟩
  exact (extract_toNat q.wdata 0 2).trans (congrArg (· % 4) (Nat.div_one _))

theorem mat3_get_set_ne {α : Type} {i j i' j' : Fin 3} (h : i' ≠ i ∨ j' ≠ j) (a : Mat3 α) (x : α) :
    (a.set i j x).get i' j' = a.get i' j' := by
  rw [Mat3.get_set, if_neg (not_and_or.2 h)]

theorem VFile.get_set_lane_self (f : VFile) (n : VReg) (l : Fin 3) (x : Residue) :
    ((f.set n ((f.get n).set l x)).get n).get l = x := by
  rw [VFile.get_set_self, Vec3.get_set_self]

/-- A lane written in one vector register leaves every other lane of the file. -/
theorem VFile.get_set_lane_ne {n n' : VReg} {l l' : Fin 3} (h : n' ≠ n ∨ l' ≠ l) (f : VFile) (x : Residue) :
    ((f.set n ((f.get n).set l x)).get n').get l' = (f.get n').get l' := by
  by_cases hn : n' = n
  · subst hn
    rw [VFile.get_set_self, Vec3.get_set, if_neg (h.resolve_left (not_not_intro rfl))]
  · rw [VFile.get_set_ne f hn]

/-- Settles O38: a misaligned offset is none of these registers'; an aligned one names its register, which gets the word
mod MOD. -/
theorem residueWritesAreReduced : Obligations.ResidueWritesAreReduced := by
  intro s q hm hr hp hq hw hsize
  have hval : val (reduceWord s.modulus q.wdata) = (q.wdata.toNat : Int) % val s.modulus := val_reduceWord hm q.wdata
  by_cases halign : q.offset.toNat % 4 = 0
  · refine ⟨_, ⟨s.draw, false⟩, step_write_idle hr hq hp hw hsize halign, rfl, ?scalar, ?key, ?result, ?lane⟩
    case scalar =>
      intro h
      rw [ofOffset_of_toNat (reg := .s) h]
      exact ⟨rfl, hval⟩
    case key =>
      intro i j h
      rw [ofOffset_key h]
      refine ⟨rfl, ?_, fun i' j' hne => mat3_get_set_ne hne s.k _⟩
      exact (congrArg val (Mat3.get_set_self s.k i j _)).trans hval
    case result =>
      intro i j h
      rw [ofOffset_result h]
      refine ⟨rfl, ?_, fun i' j' hne => mat3_get_set_ne hne s.r _⟩
      exact (congrArg val (Mat3.get_set_self s.r i j _)).trans hval
    case lane =>
      intro n l h
      rw [ofOffset_vector h]
      refine ⟨rfl, ?_, fun n' l' hne => VFile.get_set_lane_ne hne s.v _⟩
      exact (congrArg val (VFile.get_set_lane_self s.v n l _)).trans hval
  · exact ⟨_, ⟨s.draw, false⟩, step_refused hr hq (not_admitted (.inr halign)), rfl, fun _ => by omega,
      fun _ _ _ => by omega, fun _ _ _ => by omega, fun _ _ _ => by omega⟩

/-- Settles O44: a write elsewhere is dropped, CTRL is written by its bit 31, and STATUS as ever. -/
theorem busyWritesAreDropped : Obligations.BusyWritesAreDropped := by
  intro s q p hr hp hq hw hsize halign
  have hbusy := step_write hr hq hw hsize halign
  have hidle := step_write (s := { s with pend := none }) hr hq hw hsize halign
  constructor
  · intro hctrl hstatus
    exact ⟨⟨s.draw, false⟩, rfl, step_write_dropped hr hq hp hw hsize halign hctrl hstatus⟩
  · rintro (hoff | hoff)
    · refine ⟨_, hidle, hbusy.trans ?_⟩
      rw [ofOffset_eq_ctrl.2 hoff, busWrite_ctrl, busWrite_ctrl]
      cases hbit : q.wdata.getLsbD 31 with
      | true =>
        rw [writeCtrl_reset hbit, writeCtrl_reset hbit, if_pos ⟨hoff, rfl⟩]
        rfl
      | false =>
        rw [writeCtrl_enables hbit, writeCtrl_enables hbit, if_neg (by simp), ← hp]
        rfl
    · have hkept : ¬ (q.offset = 0x08#8 ∧ q.wdata.getLsbD 31 = true) := by simp [hoff]
      refine ⟨_, hidle, hbusy.trans ?_⟩
      rw [ofOffset_eq_status.2 hoff, busWrite_status, busWrite_status, writeStatus_eq, writeStatus_eq,
        if_neg hkept, ← hp]
      rfl

/-! ## The platform (R60, R79) -/

theorem windowOffset_inside (off : Offset) : Config.windowOffset (Config.base + off.toNat) = some off := by
  have hlt : off.toNat < 256 := off.isLt
  unfold Config.windowOffset Config.windowSize
  rw [if_pos (by omega), Nat.add_sub_cancel_left, BitVec.ofNat_toNat, BitVec.setWidth_eq]

theorem windowOffset_outside {addr : Nat} (h : addr < Config.base ∨ Config.base + 256 ≤ addr) :
    Config.windowOffset addr = none := by
  unfold Config.windowOffset Config.windowSize
  rw [if_neg (by omega)]

/-- Settles O45, by the platform's decode inside and outside the window. -/
theorem platformPassesOnTheWindow : Obligations.PlatformPassesOnTheWindow := by
  intro s a rest hin
  have hpop : s.popped = { s with inputs := rest } := by
    simp [State.popped, hin]
  constructor
  · intro off haddr
    have hoff : Config.windowOffset a.addr = some off := haddr ▸ windowOffset_inside off
    rw [step_platform hin, platformTurn_inside hoff, hpop]
    rfl
  · intro hout
    rw [step_platform hin, platformTurn_outside (windowOffset_outside hout), hpop]

/-! ## The busy hazard (R212, R250) -/

/-- No command reports BUSY_WRITE (R210). -/
theorem Completes.no_busyWrite {i : Instr} {s t : State} (hc : Completes i s t)
    (h : t.status.errcode = .busyWrite) : s.status.errcode = .busyWrite := by
  cases hc with
  | failed _ _ c _ hne => exact absurd h hne
  | _ => exact h

/-- A write that is made does not report BUSY_WRITE (R66). -/
theorem write_no_busyWrite {s : State} {reg : Reg} {w : Word} (h : (s.write reg w).status.errcode = .busyWrite) :
    s.status.errcode = .busyWrite := by
  cases reg with
  | ctrl =>
    obtain heq | ⟨c, heq⟩ := writeCtrl_cases s w
    · rw [State.write, heq] at h
      exact absurd h (by simp)
    · rw [State.write, heq] at h
      exact h
  | status =>
    rw [State.write, writeStatus_eq] at h
    dsimp only at h
    split at h
    · exact absurd h (by simp)
    · exact h
  | _ => exact h

theorem polite_of_nextAccess {s : State} {q : BusRequest} (hpol : s.politeNext = true) (hq : s.nextAccess q) :
    s.busy = false ∨ q.politeWhileBusy = true := by
  rcases hq with ⟨rest, hin⟩ | ⟨a, off, rest, hin, hoff, rfl⟩
  · simpa [State.politeNext, hin] using hpol
  · simpa [State.politeNext, hin, hoff] using hpol

/-- A polite write is made, not dropped (R70). -/
theorem busWrite_polite {s : State} {q : BusRequest} (h : s.busy = false ∨ q.politeWhileBusy = true)
    (ha : q.admitted = true) (hw : q.write = true) :
    s.busWrite (Reg.ofOffset q.offset) q.wdata = s.write (Reg.ofOffset q.offset) q.wdata := by
  obtain hidle | hpol := h
  · exact busWrite_idle (busy_eq_false.1 hidle) _ _
  · have hoff : q.offset = 0x08#8 ∨ q.offset = 0x0C#8 := by
      simpa [BusRequest.politeWhileBusy, ha, hw] using hpol
    obtain hoff | hoff := hoff
    · rw [ofOffset_eq_ctrl.2 hoff, busWrite_ctrl]
      rfl
    · rw [ofOffset_eq_status.2 hoff, busWrite_status]
      rfl

/-- Settles O54, by the kinds of a step: a polite write is made, and no other step reports BUSY_WRITE. -/
theorem politeHostDropsNothing : Obligations.PoliteHostDropsNothing := by
  intro s t hpol hst hcode
  cases step_cases hst with
  | quiet ht =>
    subst ht
    exact hcode
  | answered q a _ _ ht =>
    subst ht
    exact hcode
  | written q a _ hq ha hw ht =>
    subst ht
    rw [State.respond_status, busWrite_polite (s := s.popped) (polite_of_nextAccess (s := s) hpol hq) ha hw] at hcode
    exact write_no_busyWrite (s := s.popped) hcode
  | resetBy level ht =>
    subst ht
    exact absurd hcode (by simp)
  | completed w i _ _ _ _ _ hc => exact hc.no_busyWrite hcode
  | illegal w why _ _ _ _ ht =>
    subst ht
    exact absurd hcode (by simp)

/-! ## What changes a register (R69, R74) -/

/-- Settles O56, by the kinds of a step. -/
theorem registersChangeOnlyByWriteCompletionOrReset :
    Obligations.RegistersChangeOnlyByWriteCompletionOrReset := by
  intro s t hst
  cases step_cases hst with
  | quiet ht =>
    subst ht
    exact .inl rfl
  | answered q a _ _ ht =>
    subst ht
    exact .inl rfl
  | written q a _ hq ha hw _ =>
    obtain ⟨hsize, halign⟩ := (admitted_iff q).1 ha
    exact .inr (.inl ⟨q, hq, hw, hsize, halign⟩)
  | resetBy level ht =>
    subst ht
    exact .inr (.inr (.inr rfl))
  | completed w i _ hn hp _ _ hc => exact .inr (.inr (.inl ⟨w, hp, hn, hc.pend_eq⟩))
  | illegal w why _ hn hp _ ht =>
    subst ht
    exact .inr (.inr (.inl ⟨w, hp, hn, rfl⟩))

/-! ## A pending command comes to its end (R70, R121, log 2) -/

/-- Out of reset with this word pending, and these turns to come. -/
structure State.Awaits (s : State) (w : Word) (turns : List Event) : Prop where
  running : s.rstN = true
  pendEq : s.pend = some w
  inputsEq : s.inputs = turns

/-- The word is completed or discarded within so many steps, and pending until then. -/
def State.EndsWithin (s : State) (w : Word) (bound : Nat) : Prop :=
  ∃ (n : Nat) (t : State), n ≤ bound ∧ Host.Core.run Sys2Proof.core n s = .next t ∧ t.pend = none ∧
    ∀ j < n, ∃ u : State, Host.Core.run Sys2Proof.core j s = .next u ∧ u.pend = some w

theorem endsWithin_zero {s : State} (h : s.pend = none) (w : Word) (bound : Nat) : s.EndsWithin w bound :=
  ⟨0, s, Nat.zero_le _, run_zero s, h, fun _ hj => absurd hj (Nat.not_lt_zero _)⟩

theorem endsWithin_succ {s t : State} {w : Word} {bound : Nat} (hst : step s = .next t) (hp : s.pend = some w)
    (h : t.EndsWithin w bound) : s.EndsWithin w (bound + 1) := by
  obtain ⟨n, u, hn, hrun, hu, hbefore⟩ := h
  refine ⟨n + 1, u, Nat.succ_le_succ hn, (run_succ hst n).trans hrun, hu, fun j hj => ?_⟩
  cases j with
  | zero => exact ⟨s, run_zero s, hp⟩
  | succ j =>
    rw [run_succ hst]
    exact hbefore j (Nat.lt_of_succ_lt_succ hj)

/-- The engine's turn ends the pending word, legal or not. -/
theorem step_engine_ends {s : State} {w : Word} (hr : s.rstN = true) (hp : s.pend = some w) (he : s.engineNext) :
    ∃ t, step s = .next t ∧ t.pend = none := by
  obtain ⟨t, ht, hcases⟩ := complete_cases s.popped
  refine ⟨t, (step_engine he).trans ht, ?_⟩
  obtain ⟨hreset, -⟩ | ⟨-, hnone, -⟩ | ⟨w', i, -, -, -, -, hc⟩ | ⟨w', why, -, -, -, rfl⟩ := hcases
  · exact absurd (hr.symm.trans hreset) (by decide)
  · exact absurd (hp.symm.trans hnone) (by simp)
  · exact hc.pend_eq
  · rfl

/-- A busy write resets the machine, or leaves it running with its word and its turns (R70, R241). -/
theorem busWrite_keeps_pending {s : State} {w : Word} {turns : List Event} (h : s.Awaits w turns) (reg : Reg)
    (x : Word) : (s.busWrite reg x).pend = none ∨ (s.busWrite reg x).Awaits w turns := by
  by_cases hctrl : reg = .ctrl
  · rw [hctrl, busWrite_ctrl]
    obtain heq | ⟨c, heq⟩ := writeCtrl_cases s x
    · exact .inl (heq ▸ rfl)
    · exact .inr (heq ▸ ⟨h.running, h.pendEq, h.inputsEq⟩)
  · by_cases hstatus : reg = .status
    · rw [hstatus, busWrite_status, writeStatus_eq]
      exact .inr ⟨h.running, h.pendEq, h.inputsEq⟩
    · rw [busWrite_dropped h.pendEq hctrl hstatus]
      exact .inr ⟨h.running, h.pendEq, h.inputsEq⟩

/-- A transaction leaves the word pending, unless it is the soft reset (R70, R241). -/
theorem step_access_awaits {s : State} {q : BusRequest} {w : Word} {turns : List Event} (hq : s.nextAccess q)
    (h : s.popped.Awaits w turns) : ∃ t, step s = .next t ∧ (t.pend = none ∨ t.Awaits w turns) := by
  rw [step_access hq]
  obtain ⟨a, ha⟩ | ⟨-, -, a, ha⟩ := busTurn_cases h.running q
  · exact ⟨_, ha, .inr ⟨h.running, h.pendEq, h.inputsEq⟩⟩
  · refine ⟨_, ha, ?_⟩
    obtain hnone | hkept := busWrite_keeps_pending h (Reg.ofOffset q.offset) q.wdata
    · exact .inl hnone
    · exact .inr ⟨hkept.running, hkept.pendEq, hkept.inputsEq⟩

/-- Whoever has the turn, the pending word is ended or waits with one turn less. -/
theorem step_awaits {s : State} {w : Word} {e : Event} {rest : List Event} (h : s.Awaits w (e :: rest)) :
    ∃ t, step s = .next t ∧ (t.pend = none ∨ t.Awaits w rest) := by
  have hpop : s.popped.Awaits w rest := ⟨h.running, h.pendEq, congrArg List.tail h.inputsEq⟩
  cases e with
  | bus q => exact step_access_awaits (.inl ⟨rest, h.inputsEq⟩) hpop
  | platform a =>
    cases ho : Config.windowOffset a.addr with
    | none => exact ⟨_, (step_platform h.inputsEq).trans (platformTurn_outside ho _), .inr hpop⟩
    | some off => exact step_access_awaits (.inr ⟨a, off, rest, h.inputsEq, ho, rfl⟩) hpop
  | engine =>
    obtain ⟨t, ht, hnone⟩ := step_engine_ends h.running h.pendEq (.inr ⟨rest, h.inputsEq⟩)
    exact ⟨t, ht, .inl hnone⟩
  | rst level =>
    rw [step_rst h.inputsEq, resetTurn]
    split
    · exact ⟨_, rfl, .inr hpop⟩
    · exact ⟨_, rfl, .inl rfl⟩

theorem endsWithin_of_awaits {w : Word} {turns : List Event} {s : State} (h : s.Awaits w turns) :
    s.EndsWithin w (turns.length + 1) := by
  induction turns generalizing s with
  | nil =>
    obtain ⟨t, ht, hnone⟩ := step_engine_ends h.running h.pendEq (.inl h.inputsEq)
    exact endsWithin_succ ht h.pendEq (endsWithin_zero hnone w 0)
  | cons e rest ih =>
    obtain ⟨t, ht, hnone | hwait⟩ := step_awaits h
    · exact endsWithin_succ ht h.pendEq (endsWithin_zero hnone w _)
    · exact endsWithin_succ ht h.pendEq (ih hwait)

/-- Settles O16, by induction over the turns of the list. -/
theorem pendingCommandIsCompleted : Obligations.PendingCommandIsCompleted :=
  fun _ _ hr hp => endsWithin_of_awaits ⟨hr, hp, rfl⟩

end Sys2Proof.Machine
end

section
/-! The encoding (O1 to O5). A word is seen in two ways: by the command its opcode and operand fields name, and by the
fields its opcode leaves unused. The decoder, the encoder and the opcode map are each described in these two terms,
and the statements follow. -/

namespace Sys2Proof

/-! ## What a word names, and what its opcode leaves unused -/

/-- The command that the opcode and the operand fields of a word name, whatever its other bits are (R92, R102). -/
def commandOf (w : Word) : Instr :=
  let m := MatSel.ofCode (Field.ms w)
  let op := OpSel.ofCode (Field.op w)
  let src := ScalarSrc.ofCode (Field.ssrc w)
  let vd := VReg.ofCode (Field.vd w)
  let vs := VReg.ofCode (Field.vs w)
  match (Field.opc w).toNat with
  | 1 => .setmod (Field.imm8 w)
  | 2 => .det m
  | 3 => .adj m
  | 4 => .minv m
  | 5 => .sinv src
  | 6 => .matvec vd m vs
  | 7 => .parity vs
  | 8 => .twist vd vs op src
  | 9 => .untwist vd vs op src
  | _ => .nop

/-- The fields below RSV that an opcode does not use, all ones (R92). -/
def unusedBits : Nat → Word
  | 0 => wordOf 0#4 0#11 1#1 3#2 3#2 3#2 3#2 255#8
  | 1 => wordOf 0#4 0#11 1#1 3#2 3#2 3#2 3#2 0#8
  | 2 => wordOf 0#4 0#11 0#1 3#2 3#2 3#2 3#2 255#8
  | 3 => wordOf 0#4 0#11 0#1 3#2 3#2 3#2 3#2 255#8
  | 4 => wordOf 0#4 0#11 0#1 3#2 3#2 3#2 3#2 255#8
  | 5 => wordOf 0#4 0#11 1#1 3#2 0#2 3#2 3#2 255#8
  | 6 => wordOf 0#4 0#11 0#1 3#2 3#2 0#2 0#2 255#8
  | 7 => wordOf 0#4 0#11 1#1 3#2 3#2 3#2 0#2 255#8
  | 8 => wordOf 0#4 0#11 1#1 0#2 0#2 0#2 0#2 255#8
  | 9 => wordOf 0#4 0#11 1#1 0#2 0#2 0#2 0#2 255#8
  | _ => 0#32

/-- RSV and the unused fields of the word are 0, and its opcode is one of the ten (R92). -/
structure Clear (w : Word) : Prop where
  opcode : (Field.opc w).toNat < 10
  reserved : Field.rsv w = 0#11
  unused : w &&& unusedBits (Field.opc w).toNat = 0#32

theorem clear_iff {w : Word} : Clear w ↔ (Field.opc w).toNat < 10 ∧ Field.rsv w = 0#11 ∧
    w &&& unusedBits (Field.opc w).toNat = 0#32 :=
  ⟨fun h => ⟨h.opcode, h.reserved, h.unused⟩, fun ⟨hopc, hrsv, hunused⟩ => ⟨hopc, hrsv, hunused⟩⟩

/-! ## Fields and masks -/

theorem fields_wordOf (opc : BitVec 4) (rsv : BitVec 11) (ms : BitVec 1) (op ssrc vd vs : BitVec 2) (imm : BitVec 8) :
    let w := wordOf opc rsv ms op ssrc vd vs imm
    Field.opc w = opc ∧ Field.rsv w = rsv ∧ Field.ms w = ms ∧ Field.op w = op ∧ Field.ssrc w = ssrc ∧
      Field.vd w = vd ∧ Field.vs w = vs ∧ Field.imm8 w = imm :=
  wordOf_eq_iff.1 (wordOf_fields _)

theorem formatC_eq_wordOf (opc : BitVec 4) (ms : BitVec 1) (op ssrc vd vs : BitVec 2) (imm : BitVec 8) :
    formatC opc ms op ssrc vd vs imm = wordOf opc 0#11 ms op ssrc vd vs imm := rfl

/-- A masked word, field by field. -/
theorem and_wordOf_eq_iff {w : Word} {a a' : BitVec 4} {b b' : BitVec 11} {c c' : BitVec 1}
    {d d' e e' f f' g g' : BitVec 2} {h h' : BitVec 8} :
    w &&& wordOf a b c d e f g h = wordOf a' b' c' d' e' f' g' h' ↔
      Field.opc w &&& a = a' ∧ Field.rsv w &&& b = b' ∧ Field.ms w &&& c = c' ∧ Field.op w &&& d = d' ∧
        Field.ssrc w &&& e = e' ∧ Field.vd w &&& f = f' ∧ Field.vs w &&& g = g' ∧ Field.imm8 w &&& h = h' := by
  rw [← wordOf_eq_iff, ← wordOf_and, wordOf_fields]

theorem append_or_append {m n : Nat} (a a' : BitVec m) (b b' : BitVec n) :
    (a ++ b) ||| (a' ++ b') = (a ||| a') ++ (b ||| b') := by
  ext i hi
  simp only [BitVec.getElem_or, BitVec.getElem_append]
  split <;> rfl

theorem wordOf_or (a a' : BitVec 4) (b b' : BitVec 11) (c c' : BitVec 1) (d d' e e' f f' g g' : BitVec 2)
    (h h' : BitVec 8) : wordOf a b c d e f g h ||| wordOf a' b' c' d' e' f' g' h' =
      wordOf (a ||| a') (b ||| b') (c ||| c') (d ||| d') (e ||| e') (f ||| f') (g ||| g') (h ||| h') := by
  unfold wordOf
  rw [append_or_append, append_or_append, append_or_append, append_or_append, append_or_append, append_or_append,
    append_or_append]

theorem and_wordOf_eq_zero_iff {w : Word} {a : BitVec 4} {b : BitVec 11} {c : BitVec 1} {d e f g : BitVec 2}
    {h : BitVec 8} : w &&& wordOf a b c d e f g h = 0#32 ↔
      Field.opc w &&& a = 0#4 ∧ Field.rsv w &&& b = 0#11 ∧ Field.ms w &&& c = 0#1 ∧ Field.op w &&& d = 0#2 ∧
        Field.ssrc w &&& e = 0#2 ∧ Field.vd w &&& f = 0#2 ∧ Field.vs w &&& g = 0#2 ∧ Field.imm8 w &&& h = 0#8 := by
  rw [show 0#32 = wordOf 0#4 0#11 0#1 0#2 0#2 0#2 0#2 0#8 from rfl, and_wordOf_eq_iff]

theorem and_one_eq_zero (x : BitVec 1) : x &&& 1#1 = 0#1 ↔ x = 0#1 := by revert x; decide
theorem and_three_eq_zero (x : BitVec 2) : x &&& 3#2 = 0#2 ↔ x = 0#2 := by revert x; decide
theorem and_255_eq_zero (x : BitVec 8) : x &&& 255#8 = 0#8 ↔ x = 0#8 := by
  rw [show 255#8 = BitVec.allOnes 8 from rfl, BitVec.and_allOnes]

/-- A range of bits is 0 exactly when the word is 0 under the mask of that range. -/
theorem extract_eq_zero_iff (w : Word) (lo len : Nat) :
    w.extractLsb' lo len = 0#len ↔ w &&& (BitVec.allOnes len).setWidth 32 <<< lo = 0#32 := by
  constructor
  · intro h
    ext i hi
    by_cases hin : lo ≤ i ∧ i - lo < len
    · have hbit : w[i] = false := by
        simpa [hin.2, Nat.add_sub_cancel' hin.1, BitVec.getLsbD_eq_getElem hi] using
          congrArg (fun x => x.getLsbD (i - lo)) h
      simp [hbit]
    · have hout : lo ≤ i → len ≤ i - lo := by omega
      simpa using fun _ => hout
  · intro h
    ext i hi
    have hbit : w.getLsbD (lo + i) = true → lo + i < 32 → i < 32 → len ≤ i := by
      simpa using congrArg (fun x => x.getLsbD (lo + i)) h
    by_contra hne
    have hset : w.getLsbD (lo + i) = true := by simpa using hne
    have hlt : lo + i < 32 := BitVec.lt_of_getLsbD hset
    exact absurd (hbit hset hlt (by omega)) (by omega)

/-- Two tests for 0 are one under the joined mask. -/
theorem and_eq_zero_and_iff (w m m' : Word) : w &&& m = 0#32 ∧ w &&& m' = 0#32 ↔ w &&& (m ||| m') = 0#32 := by
  rw [BitVec.and_or_distrib_left, BitVec.or_eq_zero_iff]

/-! ## The decoder (R99, R100) -/

/-- The decoder tests RSV, the opcode, the unused fields and the scalar, in this order, and answers the command that the
fields name. -/
theorem decode_eq_ite (w : Word) : decode w =
    if Field.rsv w ≠ 0#11 then .illegal .reservedBits
    else if 10 ≤ (Field.opc w).toNat then .illegal .reservedOpcode
    else if w &&& unusedBits (Field.opc w).toNat ≠ 0#32 then .illegal .unusedField
    else if (commandOf w).wellFormed = true then .command (commandOf w) else .illegal .reservedScalar := by
  by_cases hrsv : Field.rsv w = 0#11
  · obtain ⟨n, hn⟩ : ∃ n, (Field.opc w).toNat = n := ⟨_, rfl⟩
    simp only [decode, commandOf, hrsv, hn]
    match n with
    | 0 | 1 | 2 | 3 | 4 | 5 | 6 | 7 | 8 | 9 =>
      simp [Decoded.unusedChecked, Decoded.scalarChecked, Field.ms, Field.imm8, extract_eq_zero_iff,
        and_eq_zero_and_iff, unusedBits, wordOf, Instr.wellFormed]
    | n + 10 => simp
  · simp [decode, hrsv]

/-- A clear word decodes to the command its fields name, unless its scalar is the reserved one. -/
theorem Clear.decode_eq {w : Word} (h : Clear w) : decode w =
    if (commandOf w).wellFormed = true then .command (commandOf w) else .illegal .reservedScalar := by
  rw [decode_eq_ite, if_neg (not_not.2 h.reserved), if_neg (Nat.not_le.2 h.opcode), if_neg (not_not.2 h.unused)]

/-- A word that is not clear is illegal. -/
theorem illegal_of_not_clear {w : Word} (h : ¬ Clear w) : ∃ why, decode w = .illegal why := by
  rw [decode_eq_ite]
  split_ifs with hrsv hopc hunused
  · exact ⟨_, rfl⟩
  · exact ⟨_, rfl⟩
  · exact ⟨_, rfl⟩
  · exact absurd ⟨Nat.not_le.1 hopc, not_not.1 hrsv, not_not.1 hunused⟩ h
  · exact ⟨_, rfl⟩

/-- Only a clear word decodes to a command, and to the one its fields name. -/
theorem of_decode_eq_command {w : Word} {i : Instr} (h : decode w = .command i) :
    Clear w ∧ i.wellFormed = true ∧ commandOf w = i := by
  by_cases hclear : Clear w
  · rw [hclear.decode_eq] at h
    split at h
    · cases h
      exact ⟨hclear, ‹_›, rfl⟩
    · cases h
  · obtain ⟨why, hwhy⟩ := illegal_of_not_clear hclear
    cases h.symm.trans hwhy

theorem decode_illegal_iff {w : Word} :
    (∃ why, decode w = .illegal why) ↔ ¬ Clear w ∨ (commandOf w).wellFormed = false := by
  by_cases h : Clear w
  · cases hwf : (commandOf w).wellFormed <;> simp [h.decode_eq, h, hwf]
  · simp [illegal_of_not_clear h, h]

/-! ## The encoder (R91, R102) -/

/-- A clear word is the one word of the command its fields name. -/
theorem Clear.encode_commandOf {w : Word} (h : Clear w) : encode (commandOf w) = w := by
  obtain ⟨hopc, hrsv, hunused⟩ := h
  have hcode : Field.opc w = BitVec.ofNat 4 (Field.opc w).toNat := by simp
  conv_rhs => rw [← wordOf_fields w, hrsv]
  obtain ⟨n, hn⟩ : ∃ n, (Field.opc w).toNat = n := ⟨_, rfl⟩
  rw [hn] at hopc hunused hcode
  simp only [commandOf, hn]
  match n with
  | 0 | 1 | 2 | 3 | 4 | 5 | 6 | 7 | 8 | 9 =>
    simp only [unusedBits, and_wordOf_eq_zero_iff, and_one_eq_zero, and_three_eq_zero, and_255_eq_zero] at hunused
    simp [encode, formatC_eq_wordOf, hunused, hcode]

/-- The word of a command names it. -/
theorem commandOf_encode (i : Instr) : commandOf (encode i) = i := by
  cases i <;> simp [encode, formatC_eq_wordOf, commandOf, fields_wordOf]

/-! ## The opcode map (R92) -/

/-- The row of an opcode, from the fields it does not use. -/
def rowOf (n : Nat) : OpRow :=
  ⟨wordOf (BitVec.ofNat 4 n) 0#11 0#1 0#2 0#2 0#2 0#2 0#8,
    wordOf (.allOnes 4) (.allOnes 11) 0#1 0#2 0#2 0#2 0#2 0#8 ||| unusedBits n⟩

theorem opcodeMap_eq : opcodeMap = (List.range 10).map rowOf := by decide

theorem mem_opcodeMap_iff {row : OpRow} : row ∈ opcodeMap ↔ ∃ n < 10, rowOf n = row := by
  simp [opcodeMap_eq]

/-- A row compares the opcode, RSV and the fields its opcode does not use. -/
theorem selects_rowOf_iff {n : Nat} (hn : n < 10) {w : Word} :
    (rowOf n).selects w = true ↔ (Field.opc w).toNat = n ∧ Field.rsv w = 0#11 ∧ w &&& unusedBits n = 0#32 := by
  have hopc : Field.opc w = BitVec.ofNat 4 n ↔ (Field.opc w).toNat = n := by
    rw [← BitVec.toNat_inj, BitVec.toNat_ofNat, Nat.mod_eq_of_lt (by omega)]
  match n with
  | 0 | 1 | 2 | 3 | 4 | 5 | 6 | 7 | 8 | 9 =>
    simp [-BitVec.reduceAllOnes, rowOf, OpRow.selects, unusedBits, wordOf_or, ← hopc,
      and_wordOf_eq_iff, and_wordOf_eq_zero_iff]

/-- The opcode map selects the clear words. -/
theorem clear_iff_selected {w : Word} : Clear w ↔ ∃ row ∈ opcodeMap, row.selects w = true := by
  constructor
  · rintro ⟨hopc, hrsv, hunused⟩
    exact ⟨_, mem_opcodeMap_iff.2 ⟨_, hopc, rfl⟩, (selects_rowOf_iff hopc).2 ⟨rfl, hrsv, hunused⟩⟩
  · rintro ⟨_, hrow, hsel⟩
    obtain ⟨n, hn, rfl⟩ := mem_opcodeMap_iff.1 hrow
    obtain ⟨rfl, hrsv, hunused⟩ := (selects_rowOf_iff hn).1 hsel
    exact ⟨hn, hrsv, hunused⟩

/-- The rows differ in the opcode, so a word selects one at most. -/
theorem selected_row_unique {w : Word} {a b : OpRow} (ha : a ∈ opcodeMap) (hb : b ∈ opcodeMap)
    (hwa : a.selects w = true) (hwb : b.selects w = true) : a = b := by
  obtain ⟨n, hn, rfl⟩ := mem_opcodeMap_iff.1 ha
  obtain ⟨m, hm, rfl⟩ := mem_opcodeMap_iff.1 hb
  obtain ⟨hopcn, -⟩ := (selects_rowOf_iff hn).1 hwa
  obtain ⟨hopcm, -⟩ := (selects_rowOf_iff hm).1 hwb
  rw [← hopcn, hopcm]

theorem row_mem_opcodeMap (i : Instr) : i.row ∈ opcodeMap := by
  cases i <;> simp [Instr.row, opcodeMap]

/-- A command's row selects its word. -/
theorem row_selects_encode (i : Instr) : i.row.selects (encode i) = true := by
  refine decide_eq_true ?_
  cases i with
  | nop => exact Laws.OpcodeRow.nop
  | setmod imm => exact Laws.OpcodeRow.setmod imm
  | det m => exact Laws.OpcodeRow.det m
  | adj m => exact Laws.OpcodeRow.adj m
  | minv m => exact Laws.OpcodeRow.minv m
  | sinv src => exact Laws.OpcodeRow.sinv src
  | matvec vd m vs => exact Laws.OpcodeRow.matvec vd m vs
  | parity vs => exact Laws.OpcodeRow.parity vs
  | twist vd vs op src => exact Laws.OpcodeRow.twist vd vs op src
  | untwist vd vs op src => exact Laws.OpcodeRow.untwist vd vs op src

theorem clear_encode (i : Instr) : Clear (encode i) :=
  clear_iff_selected.2 ⟨i.row, row_mem_opcodeMap i, row_selects_encode i⟩

theorem decode_encode (i : Instr) :
    decode (encode i) = if i.wellFormed = true then .command i else .illegal .reservedScalar := by
  rw [(clear_encode i).decode_eq, commandOf_encode]

/-- A command that is not well-formed takes the reserved scalar (R96). -/
theorem not_wellFormed_commandOf {w : Word} : (commandOf w).wellFormed = false ↔
    Field.ssrc w = 3#2 ∧ (Field.opc w = 5#4 ∨ Field.opc w = 8#4 ∨ Field.opc w = 9#4) := by
  have hlegal : (ScalarSrc.ofCode (Field.ssrc w)).legal = false ↔ Field.ssrc w = 3#2 := by
    rw [← Bool.not_eq_true, ScalarSrc.legal_ofCode, not_not]
  simp only [← BitVec.toNat_inj (x := Field.opc w)]
  obtain ⟨n, hn⟩ : ∃ n, (Field.opc w).toNat = n := ⟨_, rfl⟩
  simp only [commandOf, hn]
  match n with
  | 0 | 1 | 2 | 3 | 4 | 5 | 6 | 7 | 8 | 9 => simp [Instr.wellFormed, hlegal]
  | n + 10 => simp [Instr.wellFormed]

/-! ## The statements -/

/-- Settles O1, word by word. -/
theorem sampleWordsDecode : Obligations.SampleWordsDecode := by
  unfold Obligations.SampleWordsDecode
  decide

/-- Settles O2: the command's word is clear, and its fields name the command. -/
theorem decodeOfEncodeIsTheCommand : Obligations.DecodeOfEncodeIsTheCommand := by
  intro i hi
  rw [decode_encode, if_pos hi]

/-- Settles O3: the word is clear, and its fields name the command it encodes. -/
theorem decodedWordsReencode : Obligations.DecodedWordsReencode := by
  intro w i h
  obtain ⟨hclear, hwf, rfl⟩ := of_decode_eq_command h
  exact ⟨hwf, hclear.encode_commandOf⟩

/-- Settles O4: the rows select the clear words. -/
theorem opcodeMapSelectsTheCommand : Obligations.OpcodeMapSelectsTheCommand := by
  refine ⟨fun w a ha b hb => selected_row_unique ha hb, fun w i h => ?_, fun w h => ?_, fun w h => ?_⟩
  · obtain ⟨-, rfl⟩ := decodedWordsReencode w i h
    exact ⟨row_mem_opcodeMap i, row_selects_encode i⟩
  · rw [(clear_iff_selected.2 h).decode_eq]
    split
    · exact .inl ⟨_, rfl⟩
    next hwf => exact .inr ⟨rfl, not_wellFormed_commandOf.1 (Bool.not_eq_true _ ▸ hwf)⟩
  · refine illegal_of_not_clear fun hclear => ?_
    obtain ⟨row, hrow, hsel⟩ := clear_iff_selected.1 hclear
    exact absurd hsel (by simp [h row hrow])

/-- Settles O5: the word is not clear, or its fields name no well-formed command. -/
theorem illegalWordsAreTheListedOnes : Obligations.IllegalWordsAreTheListedOnes := by
  intro w
  obtain ⟨n, hn⟩ : ∃ n, (w.extractLsb' 28 4).toNat = n := ⟨_, rfl⟩
  simp only [decode_illegal_iff, not_wellFormed_commandOf, clear_iff, not_and_or, Field.opc, Field.rsv, Field.ssrc,
    ← BitVec.toNat_inj (x := w.extractLsb' 28 4), hn]
  match n with
  | 0 | 1 | 2 | 3 | 4 | 5 | 6 | 7 | 8 | 9 => simp [unusedBits, wordOf, or_assoc]
  | n + 10 => simp

end Sys2Proof
end

section
/-! The assembler (O6, O7). A line made of tokens, a blank after the first and a comma and a blank between the others,
is taken apart into exactly these tokens; what is left is how each operand's text is read. -/

namespace Sys2Proof.Machine

/-! ## Tokens -/

/-- A text the assembler takes as it stands. -/
structure Token (t : Text) : Prop where
  ne : t ≠ []
  noBlank : ∀ c ∈ t, isBlank c = false
  noComma : ∀ c ∈ t, c ≠ ','
  upper : ∀ c ∈ t, c.toUpper = c

/-- `Token` as a test that runs. -/
def isToken (t : Text) : Bool :=
  !t.isEmpty && t.all (fun c => !isBlank c) && t.all (fun c => c ≠ ',') && t.all (fun c => c.toUpper = c)

theorem token_of_isToken {t : Text} (h : isToken t = true) : Token t := by
  simp only [isToken, Bool.and_eq_true, Bool.not_eq_true', List.isEmpty_eq_false_iff, List.all_eq_true,
    decide_eq_true_eq] at h
  obtain ⟨⟨⟨hne, hblank⟩, hcomma⟩, hupper⟩ := h
  exact ⟨hne, hblank, hcomma, hupper⟩

/-- A text that neither begins nor ends with a blank. -/
structure Bounded (t : Text) : Prop where
  first : ∀ c ∈ t.head?, isBlank c = false
  last : ∀ c ∈ t.getLast?, isBlank c = false

theorem Token.bounded {t : Text} (h : Token t) : Bounded t :=
  ⟨fun c hc => h.noBlank c (List.mem_of_mem_head? hc), fun c hc => h.noBlank c (List.mem_of_getLast? hc)⟩

theorem Bounded.append {t u : Text} (ht : Bounded t) (hu : Bounded u) (htne : t ≠ []) (hune : u ≠ []) (s : Text) :
    Bounded (t ++ s ++ u) := by
  refine ⟨fun c hc => ht.first c ?_, fun c hc => hu.last c ?_⟩
  · rwa [List.append_assoc, List.head?_append_of_ne_nil _ htne] at hc
  · rwa [List.getLast?_append_of_ne_nil _ hune] at hc

theorem dropWhile_eq_self {t : Text} (h : ∀ c ∈ t.head?, isBlank c = false) : t.dropWhile isBlank = t := by
  cases t with
  | nil => rfl
  | cons c t => rw [List.dropWhile_cons_of_neg (by simp [h c rfl])]

theorem Bounded.trim_eq {t : Text} (h : Bounded t) : trim t = t := by
  unfold trim
  rw [dropWhile_eq_self h.first, dropWhile_eq_self (by simpa [List.head?_reverse] using h.last), List.reverse_reverse]

theorem trim_blank_cons (t : Text) : trim (' ' :: t) = trim t := rfl

/-! ## Operands between commas (R102) -/

/-- The operands after the first. -/
def tailText (xs : List Text) : Text := (xs.map (fun y => ',' :: ' ' :: y)).flatten

theorem tailText_cons (y : Text) (ys : List Text) : tailText (y :: ys) = ',' :: ((' ' :: y) ++ tailText ys) := by
  simp [tailText]

theorem bounded_operands {x : Text} {xs : List Text} (hx : Token x) (hxs : ∀ y ∈ xs, Token y) :
    Bounded (x ++ tailText xs) := by
  induction xs generalizing x with
  | nil => simpa [tailText] using hx.bounded
  | cons y ys ih =>
    obtain ⟨hy, hys⟩ := List.forall_mem_cons.1 hxs
    have h := hx.bounded.append (ih hy hys) hx.ne (by simp [hy.ne]) [',', ' ']
    simpa [tailText_cons] using h

theorem splitCommas_ne_nil (t : Text) : splitCommas t ≠ [] := by
  cases t with
  | nil => simp [splitCommas]
  | cons c t =>
    simp only [splitCommas]
    split
    · simp
    · split <;> simp

/-- Without a comma there is one piece. -/
theorem splitCommas_eq_self {x : Text} (hx : ∀ c ∈ x, c ≠ ',') : splitCommas x = [x] := by
  induction x with
  | nil => rfl
  | cons c x ih =>
    obtain ⟨hc, hx⟩ := List.forall_mem_cons.1 hx
    simp [splitCommas, ih hx, hc]

/-- The first comma ends the first piece. -/
theorem splitCommas_append {x : Text} (hx : ∀ c ∈ x, c ≠ ',') (t : Text) :
    splitCommas (x ++ ',' :: t) = x :: splitCommas t := by
  induction x with
  | nil =>
    obtain ⟨p, ps, hp⟩ := List.exists_cons_of_ne_nil (splitCommas_ne_nil t)
    simp [splitCommas, hp]
  | cons c x ih =>
    obtain ⟨hc, hx⟩ := List.forall_mem_cons.1 hx
    simp [splitCommas, ih hx, hc]

/-- The pieces between the commas are the operands. -/
theorem splitCommas_operands {x : Text} {xs : List Text} (hx : ∀ c ∈ x, c ≠ ',') (hxs : ∀ y ∈ xs, Token y) :
    (splitCommas (x ++ tailText xs)).map trim = trim x :: xs := by
  induction xs generalizing x with
  | nil => simp [tailText, splitCommas_eq_self hx]
  | cons y ys ih =>
    obtain ⟨hy, hys⟩ := List.forall_mem_cons.1 hxs
    have hcomma : ∀ c ∈ ' ' :: y, c ≠ ',' := List.forall_mem_cons.2 ⟨by decide, hy.noComma⟩
    rw [tailText_cons, splitCommas_append hx, List.map_cons, ih hcomma hys, trim_blank_cons, hy.bounded.trim_eq]

/-! ## The whole line -/

theorem formText_cons (m x : Text) (xs : List Text) : formText m (x :: xs) = m ++ ' ' :: (x ++ tailText xs) := by
  simp [formText, tailText]

theorem bounded_formText {m : Text} {ops : List Text} (hm : Token m) (hops : ∀ x ∈ ops, Token x) :
    Bounded (formText m ops) := by
  cases ops with
  | nil => exact hm.bounded
  | cons x xs =>
    obtain ⟨hx, hxs⟩ := List.forall_mem_cons.1 hops
    have h := hm.bounded.append (bounded_operands hx hxs) hm.ne (by simp [hx.ne]) [' ']
    simpa [formText_cons] using h

theorem upper_formText {m : Text} {ops : List Text} (hm : Token m) (hops : ∀ x ∈ ops, Token x) :
    (formText m ops).map Char.toUpper = formText m ops := by
  have upper {t : Text} (ht : Token t) : t.map Char.toUpper = t :=
    (List.map_congr_left ht.upper).trans (List.map_id _)
  have tail {xs : List Text} (hxs : ∀ y ∈ xs, Token y) : (tailText xs).map Char.toUpper = tailText xs := by
    induction xs with
    | nil => rfl
    | cons y ys ih =>
      obtain ⟨hy, hys⟩ := List.forall_mem_cons.1 hxs
      simp [tailText_cons, upper hy, ih hys]
  cases ops with
  | nil => exact upper hm
  | cons x xs =>
    obtain ⟨hx, hxs⟩ := List.forall_mem_cons.1 hops
    simp [formText_cons, upper hm, upper hx, tail hxs]

/-- A line of tokens is read as these tokens (log 10). -/
theorem assemble_formText {m : Text} {ops : List Text} (hm : Token m) (hops : ∀ x ∈ ops, Token x) :
    assemble (formText m ops) = assembleForm m ops := by
  have hblank : ∀ c ∈ m, (!isBlank c) = true := fun c hc => by simp [hm.noBlank c hc]
  unfold assemble
  rw [upper_formText hm hops, (bounded_formText hm hops).trim_eq]
  cases ops with
  | nil =>
    simp only [formText, List.takeWhile_eq_self_iff.2 hblank, List.dropWhile_eq_nil_iff.2 hblank]
    rfl
  | cons x xs =>
    obtain ⟨hx, hxs⟩ := List.forall_mem_cons.1 hops
    have hstop : (!isBlank ' ') = false := rfl
    have hne : x ++ tailText xs ≠ [] := by simp [hx.ne]
    simp only [formText_cons, List.takeWhile_append_of_pos hblank, List.dropWhile_append_of_pos hblank,
      List.takeWhile_cons, List.dropWhile_cons, hstop, Bool.false_eq_true, if_false, List.append_nil, trim_blank_cons,
      (bounded_operands hx hxs).trim_eq, hne, splitCommas_operands hx.noComma hxs, hx.bounded.trim_eq]

/-- A line of tokens is read as a command when its tokens are (log 10). -/
theorem assemble_of_assembleForm {m : Text} {ops : List Text} {i : Instr} (hm : isToken m = true)
    (hops : ∀ x ∈ ops, Token x) (h : assembleForm m ops = some i) : assemble (formText m ops) = some i :=
  (assemble_formText (token_of_isToken hm) hops).trans h

/-! ## Operands as text (R94 to R98) -/

@[simp] theorem token_matrixText (m : MatSel) : Token (matrixText m) := token_of_isToken (by cases m <;> decide)
@[simp] theorem token_vectorText (n : VReg) : Token (vectorText n) := token_of_isToken (by cases n <;> decide)
@[simp] theorem token_opText (o : OpSel) : Token (opText o) := token_of_isToken (by cases o <;> decide)
@[simp] theorem token_scalarText {a : ScalarSrc} (h : a.legal = true) : Token (scalarText a) :=
  token_of_isToken (by revert h; cases a <;> decide)
@[simp] theorem token_immText (m : BitVec 8) : Token (immText m) := token_of_isToken (by revert m; decide)

@[simp] theorem readMatrix_matrixText (m : MatSel) : readMatrix (matrixText m) = some m := by cases m <;> decide
@[simp] theorem readVector_vectorText (n : VReg) : readVector (vectorText n) = some n := by cases n <;> decide
@[simp] theorem readOp_opText (o : OpSel) : readOp (opText o) = some o := by cases o <;> decide
@[simp] theorem readScalar_scalarText {a : ScalarSrc} (h : a.legal = true) : readScalar (scalarText a) = some a := by
  revert h; cases a <;> decide
@[simp] theorem readImm_immText (m : BitVec 8) : readImm (immText m) = some m := by revert m; decide


/-! ## The statements -/

/-- Settles O6, command by command: the tokens of the line, then the texts of its operands. -/
theorem assembledTextGivesTheCommand : Obligations.AssembledTextGivesTheCommand := by
  intro i hwf
  unfold instrText
  cases i with
  | nop | setmod imm | det m | adj m | minv m | matvec vd m vs | parity vs =>
    exact assemble_of_assembleForm (by decide) (by simp) (by simp [assembleForm])
  | sinv src | twist vd vs op src | untwist vd vs op src =>
    have hlegal : src.legal = true := hwf
    exact assemble_of_assembleForm (by decide) (by simp [hlegal]) (by simp [assembleForm, hlegal])

/-- Settles O7, row by row of R103. -/
theorem pseudoCommandsExpand : Obligations.PseudoCommandsExpand := by
  intro vd vs
  refine ⟨?_, ?_, ?_, ?_, ?_⟩
  · exact assemble_of_assembleForm (by decide) (by simp) (by simp [assembleForm, Instr.enc])
  · exact assemble_of_assembleForm (by decide) (by simp) (by simp [assembleForm, Instr.dec])
  · exact assemble_of_assembleForm (by decide) (by simp) (by simp [assembleForm, Instr.twf])
  · exact assemble_of_assembleForm (by decide) (by simp) (by simp [assembleForm, Instr.utwf])
  · exact assemble_of_assembleForm (by decide) (by simp) (by simp [assembleForm, Instr.classify])

end Sys2Proof.Machine
end

section
/-! An illegal word at the engine's turn (O14). -/

namespace Sys2Proof.Machine

/-- Settles O14: the engine's turn fails the illegal word. -/
theorem illegalWordFailsAtCompletion : Obligations.IllegalWordFailsAtCompletion := by
  intro s w why hr hp hd hn
  rw [step_engine hn, complete_illegal (s := s.popped) hr hp hd]
  rfl

end Sys2Proof.Machine
end

section
/-! The control commands (O13, O17, O18): the engine's turn runs the decoded command, and what the words of NOP and
SETMOD are and do. -/

namespace Sys2Proof.Machine

/-! ## The words of an opcode (R92, R99) -/

/-- A word with a bit set in RSV or in a field its opcode does not use is illegal; `mask` joins the two. -/
theorem illegal_of_bits_outside_operands {w mask : Word} {opc : BitVec 4} (hopc : w.extractLsb' 28 4 = opc)
    (hmask : mask = 0x0FFE0000#32 ||| unusedBits opc.toNat) (h : w &&& mask ≠ 0#32) :
    ∃ why, decode w = .illegal why := by
  refine illegal_of_not_clear fun hclear => h ?_
  have hreserved : w &&& 0x0FFE0000#32 = 0#32 := (extract_eq_zero_iff w 17 11).1 hclear.reserved
  have hunused : w &&& unusedBits opc.toNat = 0#32 := hopc ▸ hclear.unused
  rw [hmask, ← and_eq_zero_and_iff]
  exact ⟨hreserved, hunused⟩

theorem encode_setmod (m : BitVec 8) : encode (.setmod m) = 0x10000000#32 ||| m.setWidth 32 := rfl

theorem decode_setmod_word (m : BitVec 8) : decode (0x10000000#32 ||| m.setWidth 32) = .command (.setmod m) := by
  rw [← encode_setmod]
  exact decodeOfEncodeIsTheCommand (.setmod m) rfl

/-! ## The statements -/

/-- Settles O18: the bound on the operand decides between the failed state and the cleared one. -/
theorem setmodSetsTheModulus : Obligations.SetmodSetsTheModulus := by
  refine ⟨decode_setmod_word, fun _ hopc => illegal_of_bits_outside_operands hopc rfl,
    fun m s => ⟨fun hm => ?_, fun hm => ?_⟩⟩
  · exact exec_setmod_low hm s
  · have hv (n : VReg) (l : Fin 3) : (zeroVFile.get n).get l = 0#8 := by rw [zeroVFile_get, zeroVec_get]
    exact ⟨_, exec_setmod_legal hm s, rfl, zeroMat_get, zeroMat_get, hv⟩

/-- Settles O13: the turn is the engine's, and the pending word decodes. -/
theorem engineTurnRunsThePendingCommand : Obligations.EngineTurnRunsThePendingCommand := by
  intro s w i hr hp hd hn
  rw [step_engine hn]
  exact complete_command (s := s.popped) hr hp hd

/-- Settles O17: every bit of a word with opcode 0 lies in RSV or in a field NOP does not use. -/
theorem nopOnlyCompletes : Obligations.NopOnlyCompletes :=
  ⟨decodeOfEncodeIsTheCommand .nop rfl, fun _ hopc => illegal_of_bits_outside_operands hopc rfl, exec_nop⟩

end Sys2Proof.Machine
end

section
/-! The linear algebra commands (O19 to O22): the words of DET, ADJ, MINV and SINV and what each of them writes. -/

namespace Sys2Proof.Machine

/-! ## Words (R92, R96, R99) -/

theorem encode_det (m : MatSel) : encode (.det m) = 0x20000000#32 ||| m.code.setWidth 32 <<< 16 := by
  cases m <;> rfl

theorem encode_adj (m : MatSel) : encode (.adj m) = 0x30000000#32 ||| m.code.setWidth 32 <<< 16 := by
  cases m <;> rfl

theorem encode_minv (m : MatSel) : encode (.minv m) = 0x40000000#32 ||| m.code.setWidth 32 <<< 16 := by
  cases m <;> rfl

theorem encode_sinv (src : ScalarSrc) : encode (.sinv src) = 0x50000000#32 ||| src.code.setWidth 32 <<< 12 := by
  cases src <;> rfl

/-- A well-formed command's word, in any form it is written in, decodes to the command. -/
theorem decode_of_encode_eq {i : Instr} {w : Word} (hw : encode i = w) (hi : i.wellFormed = true) :
    decode w = .command i := by
  rw [← hw]
  exact decodeOfEncodeIsTheCommand i hi

theorem ScalarSrc.legal_iff {src : ScalarSrc} : src.legal = true ↔ src ≠ .reserved := by
  cases src <;> decide

/-- SSRC = 3 is illegal in the three commands that take a scalar. -/
theorem illegal_of_reserved_scalar {w : Word} (hssrc : w.extractLsb' 12 2 = 3#2)
    (hopc : w.extractLsb' 28 4 = 5#4 ∨ w.extractLsb' 28 4 = 8#4 ∨ w.extractLsb' 28 4 = 9#4) :
    ∃ why, decode w = .illegal why :=
  decode_illegal_iff.2 (.inr (not_wellFormed_commandOf.2 ⟨hssrc, hopc⟩))

/-- The scalar registers SSRC names, written out (R96). -/
theorem scalar_eq_some_iff {s : State} {src : ScalarSrc} {a : Residue} : s.scalar src = some a ↔
    (src = .det ∧ a = s.det) ∨ (src = .s ∧ a = s.s) ∨ (src = .inv ∧ a = s.inv) := by
  cases src <;> simp [State.scalar, eq_comm]

/-! ## The statements -/

/-- Settles O19: DET answers one state, for every modulus. -/
theorem detWritesTheDeterminant : Obligations.DetWritesTheDeterminant :=
  ⟨fun m => decode_of_encode_eq (encode_det m) rfl, fun _ hopc => illegal_of_bits_outside_operands hopc rfl,
    fun m s hm => ⟨_, exec_det m s, rfl, val_detResidue hm _, isUnit_iff _ _⟩⟩

/-- Settles O20: an adjugate entry is by definition the signed minor of the transposed place. -/
theorem adjWritesTheAdjugate : Obligations.AdjWritesTheAdjugate :=
  ⟨fun m => decode_of_encode_eq (encode_adj m) rfl, fun _ hopc => illegal_of_bits_outside_operands hopc rfl,
    fun m s hm => ⟨_, exec_adj m s, rfl, val_adjResidue hm _⟩⟩

/-- Settles O21: whether the determinant is coprime to M decides between the two ways MINV completes. -/
theorem minvWritesTheInverse : Obligations.MinvWritesTheInverse := by
  refine ⟨fun m => decode_of_encode_eq (encode_minv m) rfl, fun _ hopc => illegal_of_bits_outside_operands hopc rfl,
    fun m s hm => ?_⟩
  by_cases hunit : Nat.gcd (detResidue s.modulus (s.matrix m)).toNat s.modulus.toNat = 1
  · obtain ⟨u, hu⟩ := invM_of_coprime hm hunit
    obtain ⟨hlt, -⟩ := invM_eq_some hu
    exact ⟨_, exec_minv_some hu, val_detResidue hm _,
      fun _ => ⟨rfl, val u, val_nonneg u, val_lt_iff.2 hlt, invM_mul_emod hu, val_scaledAdj hm _ u⟩,
      fun hnot => absurd hunit hnot⟩
  · exact ⟨_, exec_minv_none (invM_of_not_coprime hunit), val_detResidue hm _,
      fun h => absurd h hunit, fun _ => rfl⟩

/-- Settles O22: the reserved source fails, and whether the operand is coprime to M decides between the two ways SINV
completes. -/
theorem sinvWritesTheInverse : Obligations.SinvWritesTheInverse := by
  refine ⟨fun src hsrc => decode_of_encode_eq (encode_sinv src) (ScalarSrc.legal_iff.2 hsrc), ?_, ?_⟩
  · rintro w hopc (hbits | hssrc)
    · exact illegal_of_bits_outside_operands hopc rfl hbits
    · exact illegal_of_reserved_scalar hssrc (.inl hopc)
  · refine fun src s hm => ⟨?_, fun a ha => ⟨fun hunit => ?_, fun hnot => ?_⟩⟩
    · rintro rfl
      exact exec_sinv_reserved s
    · obtain ⟨u, hu⟩ := invM_of_coprime hm hunit
      obtain ⟨hlt, hone, -⟩ := invM_eq_some hu
      exact ⟨_, exec_sinv_some (scalar_eq_some_iff.2 ha) hu, rfl, hlt, hone⟩
    · exact exec_sinv_none (scalar_eq_some_iff.2 ha) (invM_of_not_coprime hnot)

end Sys2Proof.Machine
end

section
/-! The laws of the matrix units (O27, O28, O30). Integer matrices and blocks are read over the ring of residues mod M, where
the units' determinant, adjugate and products are Mathlib's, so that its laws of matrices carry over. -/

namespace Sys2Proof.Machine

/-! ## Integers mod M (R8) -/

theorem cast_eq_cast_iff {m : Residue} {x y : Int} : (x : ZMod m.toNat) = y ↔ x % val m = y % val m :=
  ZMod.intCast_eq_intCast_iff' x y m.toNat

@[simp] theorem cast_emod_val (m : Residue) (x : Int) : ((x % val m : Int) : ZMod m.toNat) = x :=
  ZMod.intCast_mod x m.toNat

theorem one_lt_val {m : Residue} (hm : 2 ≤ m.toNat) : 1 < val m := Int.ofNat_lt.2 hm

/-- Residues below M are told apart mod M. -/
theorem eq_of_cast_val_eq {m x y : Residue} (hx : x.toNat < m.toNat) (hy : y.toNat < m.toNat)
    (h : (val x : ZMod m.toNat) = val y) : x = y := by
  have hmod : val x % val m = val y % val m := cast_eq_cast_iff.1 h
  rw [Int.emod_eq_of_lt (val_nonneg x) (val_lt_iff.2 hx), Int.emod_eq_of_lt (val_nonneg y) (val_lt_iff.2 hy)] at hmod
  exact val_injective hmod

/-! ## Integer matrices mod M (R140, R143, R145) -/

/-- The integer matrix with entries `e`, read mod M. -/
def modMat (m : Residue) (e : Fin 3 → Fin 3 → Int) : Matrix (Fin 3) (Fin 3) (ZMod m.toNat) :=
  Matrix.of fun i j => (e i j : ZMod m.toNat)

@[simp] theorem modMat_apply (m : Residue) (e : Fin 3 → Fin 3 → Int) (i j : Fin 3) : modMat m e i j = e i j := rfl

theorem modMat_eq_iff {m : Residue} {e f : Fin 3 → Fin 3 → Int} :
    modMat m e = modMat m f ↔ ∀ i j, e i j % val m = f i j % val m := by
  simp [← Matrix.ext_iff, cast_eq_cast_iff]

section Units

variable (m : Residue) (e f : Fin 3 → Fin 3 → Int)

theorem modMat_mulOf : modMat m (mulOf e f) = modMat m e * modMat m f := by
  ext i j
  simp [mulOf, Matrix.mul_apply, Fin.sum_univ_three]

theorem modMat_identityOf : modMat m identityOf = 1 := by
  ext i j
  simp [identityOf, Matrix.one_apply]

theorem modMat_mul_left (x : Int) : modMat m (fun i j => x * e i j) = (x : ZMod m.toNat) • modMat m e := by
  ext i j
  simp

theorem det_modMat : (modMat m e).det = detOf e := by
  rw [Matrix.det_fin_three]
  simp only [modMat_apply, detOf]
  push_cast
  ring

theorem adjugate_modMat : (modMat m e).adjugate = modMat m (adjOf e) := by
  rw [Matrix.adjugate_fin_three]
  ext i j
  fin_cases i <;> fin_cases j <;> simp [adjOf, cofactorOf, minorOf, Fin.succAbove] <;> ring

end Units

theorem identityOf_emod {m : Residue} (hm : 2 ≤ m.toNat) (i j : Fin 3) : identityOf i j % val m = identityOf i j := by
  unfold identityOf
  split
  · exact Int.emod_eq_of_lt Int.one_nonneg (one_lt_val hm)
  · exact Int.zero_emod _

/-! ## The results of the units mod M (R144, R147, R170) -/

/-- The block `x` of residues, read mod M. -/
def modVec (m : Residue) (x : Vec3 Residue) (i : Fin 3) : ZMod m.toNat := val (x.get i)

section Results

variable {m : Residue} (hm : 2 ≤ m.toNat) (a : Mat3 Residue)
include hm

theorem modMat_adjResidue : modMat m (entries (adjResidue m a)) = (modMat m (entries a)).adjugate := by
  rw [adjugate_modMat]
  ext i j
  simp [entries, val_adjResidue hm]

theorem modMat_scaledAdj (t : Residue) :
    modMat m (entries (scaledAdj m a t)) = (val t : ZMod m.toNat) • (modMat m (entries a)).adjugate := by
  rw [adjugate_modMat]
  ext i j
  simp [entries, val_scaledAdj hm, mul_comm]

/-- The adjugate scaled by the determinant's inverse is the matrix's inverse (R148). -/
theorem modMat_mul_scaledAdj {t : Residue} (ht : invM m (detResidue m a) = some t) :
    modMat m (entries a) * modMat m (entries (scaledAdj m a t)) = 1 := by
  have hunit : (val t : ZMod m.toNat) * detOf (entries a) = 1 := by
    have hone : val (detResidue m a) * val t % val m = 1 % val m := by
      rw [invM_mul_emod ht, Int.emod_eq_of_lt Int.one_nonneg (one_lt_val hm)]
    simpa [val_detResidue hm, mul_comm] using cast_eq_cast_iff.2 hone
  rw [modMat_scaledAdj hm, Matrix.mul_smul, Matrix.mul_adjugate, det_modMat, smul_smul, hunit, one_smul]

theorem modVec_mulVec (x : Vec3 Residue) : modVec m (mulVec m a x) = (modMat m (entries a)).mulVec (modVec m x) := by
  ext i
  simp [modVec, val_mulVec hm, Matrix.mulVec, dotProduct, Fin.sum_univ_three]

/-- A reduced block multiplied by a matrix and then by its inverse is the block again (R171). -/
theorem mulVec_mulVec_of_inverse {a b : Mat3 Residue} (hinv : modMat m (entries b) * modMat m (entries a) = 1)
    {x : Vec3 Residue} (hx : ∀ l, (x.get l).toNat < m.toNat) : mulVec m b (mulVec m a x) = x := by
  have hmod : modVec m (mulVec m b (mulVec m a x)) = modVec m x := by
    rw [modVec_mulVec hm, modVec_mulVec hm, Matrix.mulVec_mulVec, hinv, Matrix.one_mulVec]
  exact Vec3.ext_get fun l => eq_of_cast_val_eq (mulVec_get_lt hm _ _ l) (hx l) (congrFun hmod l)

end Results

/-! ## MINV and MATVEC (R147, R170) -/

/-- MINV sets MIV only where the determinant has an inverse, and R then holds the inverse mod M of the matrix it read. -/
theorem exec_minv_miv {m : MatSel} {s t : State} (hm : s.modLegal) (h : exec (.minv m) s = .next t)
    (hmiv : t.status.miv = true) :
    modMat s.modulus (entries (s.matrix m)) * modMat s.modulus (entries t.r) = 1 := by
  cases hi : invM s.modulus (detResidue s.modulus (s.matrix m)) with
  | none =>
    cases (exec_minv_none hi).symm.trans h
    exact absurd hmiv (by simp)
  | some u =>
    cases (exec_minv_some hi).symm.trans h
    exact modMat_mul_scaledAdj hm _ hi

theorem State.matrix_k (s : State) : s.matrix .k = s.k := rfl

@[simp] theorem State.matrix_setV_finish (s : State) (n : VReg) (x : Vec3 Residue) (m : MatSel) :
    (s.setV n x).finish.matrix m = s.matrix m := by
  cases m <;> rfl

/-! ## The statements -/

/-- Settles O27: mod M the new R is the adjugate of the matrix read. -/
theorem adjugateTimesMatrixIsDeterminant : Obligations.AdjugateTimesMatrixIsDeterminant := by
  intro m s t hm h
  cases (exec_adj m s).symm.trans h
  rw [← modMat_eq_iff (f := fun i j => detOf (entries (s.matrix m)) % val s.modulus * identityOf i j),
    modMat_mulOf, modMat_mul_left, modMat_identityOf, cast_emod_val, State.finish_r, modMat_adjResidue hm,
    Matrix.mul_adjugate, det_modMat]

/-- Settles O28: over a commutative ring an inverse from the right is one from the left. -/
theorem minvResultIsInverseOnBothSides : Obligations.MinvResultIsInverseOnBothSides := by
  intro m s t hm h hmiv i j
  have hright := exec_minv_miv hm h hmiv
  have hleft := mul_eq_one_comm.1 hright
  rw [← modMat_mulOf, ← modMat_identityOf, modMat_eq_iff] at hright hleft
  rw [hright, hleft, identityOf_emod hm]
  exact ⟨rfl, rfl⟩

/-- Settles O30: MINV leaves K and MOD, so K and R are still inverse to each other, in either order. -/
theorem matvecByInverseRestoresTheBlock : Obligations.MatvecByInverseRestoresTheBlock := by
  intro s0 s1 s va vb vc m m' hm h hmiv hmod hk hr hred hsel
  obtain ⟨hk1, -, hmod1⟩ := (completes_of_exec h).hostData_eq (by simp)
  have hlegal : 2 ≤ s.modulus.toNat := by rwa [hmod, hmod1]
  have hkr : modMat s.modulus (entries s.k) * modMat s.modulus (entries s.r) = 1 := by
    rw [hmod, hk, hr, hmod1, hk1, ← State.matrix_k]
    exact exec_minv_miv hm h hmiv
  have hinv : modMat s.modulus (entries (s.matrix m')) * modMat s.modulus (entries (s.matrix m)) = 1 := by
    obtain ⟨rfl, rfl⟩ | ⟨rfl, rfl⟩ := hsel
    · exact mul_eq_one_comm.1 hkr
    · exact hkr
  have hblock := mulVec_mulVec_of_inverse hlegal hinv (hred.vBelow va)
  refine ⟨_, _, exec_matvec vb va m s, exec_matvec vc vb m' _, ?_, fun hne => ?_⟩
  · simpa using hblock
  · by_cases hca : va = vc
    · rw [hca]
    · simpa [VFile.get_set_ne _ hca, VFile.get_set_ne _ hne.symm] using hblock

end Sys2Proof.Machine
end

section
/-! The matrix-vector multiplier (O23, O33): the words of MATVEC and what it writes, and the way of a block through
MATVEC K, TWIST, UNTWIST and MATVEC R. -/

namespace Sys2Proof.Machine

/-! ## Words (R92) -/

theorem encode_matvec (vd vs : VReg) (m : MatSel) : encode (.matvec vd m vs) =
    0x60000000#32 ||| m.code.setWidth 32 <<< 16 ||| vd.code.setWidth 32 <<< 10 ||| vs.code.setWidth 32 <<< 8 := by
  cases vd <;> cases vs <;> cases m <;> rfl

/-! ## UNTWIST reverses TWIST (R184, R187, R189) -/

/-- The inverse is one over the ring of residues mod M (R10). -/
theorem cast_mul_invM {m a t : Residue} (hm : 2 ≤ m.toNat) (h : invM m a = some t) :
    (val a : ZMod m.toNat) * val t = 1 := by
  have hone : val a * val t % val m = 1 % val m := by
    rw [invM_mul_emod h, Int.emod_eq_of_lt Int.one_nonneg (one_lt_val hm)]
  simpa using cast_eq_cast_iff.2 hone

/-- A reduced lane is twisted and untwisted back by every operation, for Multiply by a unit. -/
theorem untwistLane_twistLane {m : Residue} (hm : 2 ≤ m.toNat) {o : TwistOp} {sc : Residue}
    (hunit : o = .mul → Nat.gcd sc.toNat m.toNat = 1) {x : Residue} (hx : x.toNat < m.toNat) :
    untwistLane m o sc (twistLane m o sc x) = some x := by
  have hback {y : Int} (hy : (y : ZMod m.toNat) = val x) : some (reduce m y) = some x := by
    rw [reduce_congr m (cast_eq_cast_iff.1 hy), reduce_val hm hx]
  cases o with
  | add => exact hback (by simp [twistLane, val_reduce hm])
  | sub => exact hback (by simp [twistLane, val_reduce hm])
  | mul =>
    obtain ⟨u, hu⟩ := invM_of_coprime hm (hunit rfl)
    rw [untwistLane, hu]
    exact hback (by simp [twistLane, val_reduce hm, mul_assoc, cast_mul_invM hm hu])

theorem untwistVec_twistVec {m : Residue} (hm : 2 ≤ m.toNat) {o : TwistOp} {sc : Residue}
    (hunit : o = .mul → Nat.gcd sc.toNat m.toNat = 1) {x : Vec3 Residue} (hx : ∀ l, (x.get l).toNat < m.toNat) :
    untwistVec m o sc (twistVec m o sc x) = some x := by
  rw [untwistVec_eq_some]
  intro l
  rw [twistVec_get]
  exact untwistLane_twistLane hm hunit (hx l)

/-! ## What a MINV that sets MIV leaves (R147) -/

/-- MINV sets MIV only where the determinant it writes is coprime to M. -/
theorem det_coprime_of_exec_minv_miv {m : MatSel} {s t : State} (h : exec (.minv m) s = .next t)
    (hmiv : t.status.miv = true) : Nat.gcd t.det.toNat t.modulus.toNat = 1 := by
  cases hi : invM s.modulus (detResidue s.modulus (s.matrix m)) with
  | none =>
    cases (exec_minv_none hi).symm.trans h
    exact absurd hmiv (by simp)
  | some u =>
    cases (exec_minv_some hi).symm.trans h
    exact (invM_eq_some hi).2.2

/-! ## The statements -/

/-- Settles O23: every lane of the product is one exact sum of products, reduced once. -/
theorem matvecWritesTheProduct : Obligations.MatvecWritesTheProduct := by
  refine ⟨fun vd vs m => decode_of_encode_eq (encode_matvec vd vs m) rfl,
    fun _ hopc => illegal_of_bits_outside_operands hopc rfl,
    fun vd vs m s hm => ⟨_, exec_matvec vd vs m s, rfl, fun n hn => VFile.get_set_ne s.v hn _, fun i => ?_⟩⟩
  rw [State.finish_v, State.setV_v, VFile.get_set_self, val_mulVec hm]

/-- Settles O33: TWIST and UNTWIST cancel, since TFLAG names an operation and DET is a unit, and the products by K and
R cancel by the law of R171; no command writes V0. -/
theorem blockRoundTrip : Obligations.BlockRoundTrip := by
  intro s0 s1 s hm h hmiv hmod hk hr hdet hred hflag
  obtain ⟨-, -, hmod1⟩ := (completes_of_exec h).hostData_eq (by simp)
  have hlegal : 2 ≤ s.modulus.toNat := by rwa [hmod, hmod1]
  have hunit : Nat.gcd s.det.toNat s.modulus.toNat = 1 := by
    rw [hdet, hmod]
    exact det_coprime_of_exec_minv_miv h hmiv
  obtain ⟨o, ho⟩ : ∃ o, effOp .flag s.tflag = some o :=
    Option.ne_none_iff_exists'.1 fun hnone => hflag (effOp_eq_none.1 hnone).2
  have htwist := untwistVec_twistVec hlegal (fun _ : o = .mul => hunit) (mulVec_get_lt hlegal s.k (s.v.get .v0))
  obtain ⟨t, u, hkt, hru, hblock, -⟩ :=
    matvecByInverseRestoresTheBlock s0 s1 s .v0 .v1 .v3 .k .r hm h hmiv hmod hk hr hred (.inl ⟨rfl, rfl⟩)
  cases (exec_matvec .v1 .v0 .k s).symm.trans hkt
  cases (exec_matvec .v3 .v1 .r _).symm.trans hru
  exact ⟨_, _, _, _, exec_matvec .v1 .v0 .k s, exec_twist_ok (a := s.det) rfl ho,
    exec_untwist_ok (a := s.det) rfl ho htwist, exec_matvec .v3 .v2 .r _, hblock, rfl⟩

end Sys2Proof.Machine
end

section
/-! The parity counter and the twist operator (O24 to O26, O31, O32): the words of PARITY, TWIST and UNTWIST, what each of
them writes, and when UNTWIST takes TWIST back. -/

namespace Sys2Proof.Machine

/-! ## Words (R92, R96, R99) -/

theorem encode_parity (vs : VReg) : encode (.parity vs) = 0x70000000#32 ||| vs.code.setWidth 32 <<< 8 := by
  cases vs <;> rfl

/-- The word of a command with the four operands OP, SSRC, VD and VS, as its fields each shifted to its place (R91). -/
theorem formatC_eq_or (opc : BitVec 4) (op ssrc vd vs : BitVec 2) : formatC opc 0#1 op ssrc vd vs 0#8 =
    opc.setWidth 32 <<< 28 ||| op.setWidth 32 <<< 14 ||| ssrc.setWidth 32 <<< 12 ||| vd.setWidth 32 <<< 10
      ||| vs.setWidth 32 <<< 8 := by
  have hopc : opc.setWidth 32 <<< 28 = wordOf opc 0#11 0#1 0#2 0#2 0#2 0#2 0#8 := by revert opc; decide
  have hop : op.setWidth 32 <<< 14 = wordOf 0#4 0#11 0#1 op 0#2 0#2 0#2 0#8 := by revert op; decide
  have hssrc : ssrc.setWidth 32 <<< 12 = wordOf 0#4 0#11 0#1 0#2 ssrc 0#2 0#2 0#8 := by revert ssrc; decide
  have hvd : vd.setWidth 32 <<< 10 = wordOf 0#4 0#11 0#1 0#2 0#2 vd 0#2 0#8 := by revert vd; decide
  have hvs : vs.setWidth 32 <<< 8 = wordOf 0#4 0#11 0#1 0#2 0#2 0#2 vs 0#8 := by revert vs; decide
  rw [hopc, hop, hssrc, hvd, hvs, wordOf_or, wordOf_or, wordOf_or, wordOf_or, formatC_eq_wordOf]
  simp

theorem encode_twist (vd vs : VReg) (op : OpSel) (src : ScalarSrc) : encode (.twist vd vs op src) =
    0x80000000#32 ||| op.code.setWidth 32 <<< 14 ||| src.code.setWidth 32 <<< 12 ||| vd.code.setWidth 32 <<< 10
      ||| vs.code.setWidth 32 <<< 8 :=
  formatC_eq_or 8#4 op.code src.code vd.code vs.code

theorem encode_untwist (vd vs : VReg) (op : OpSel) (src : ScalarSrc) : encode (.untwist vd vs op src) =
    0x90000000#32 ||| op.code.setWidth 32 <<< 14 ||| src.code.setWidth 32 <<< 12 ||| vd.code.setWidth 32 <<< 10
      ||| vs.code.setWidth 32 <<< 8 :=
  formatC_eq_or 9#4 op.code src.code vd.code vs.code

/-- TWIST and UNTWIST use one set of fields: a bit outside them, or SSRC = 3, makes the word illegal. -/
theorem illegal_twist_word {w : Word} (hopc : w.extractLsb' 28 4 = 8#4 ∨ w.extractLsb' 28 4 = 9#4)
    (h : w &&& 0x0FFF00FF#32 ≠ 0#32 ∨ w.extractLsb' 12 2 = 3#2) : ∃ why, decode w = .illegal why := by
  obtain hbits | hssrc := h
  · obtain hopc | hopc := hopc
    · exact illegal_of_bits_outside_operands hopc rfl hbits
    · exact illegal_of_bits_outside_operands hopc rfl hbits
  · exact illegal_of_reserved_scalar hssrc (.inr hopc)

/-! ## PARITY (R180 to R182) -/

theorem evenCount_eq_card (x : Vec3 Residue) :
    evenCount x = (Finset.univ.filter fun l : Fin 3 => (x.get l).toNat % 2 = 0).card := by
  rw [Finset.card_filter, Fin.sum_univ_three]
  rfl

theorem evenCount_le (x : Vec3 Residue) : evenCount x ≤ 3 := by
  rw [evenCount_eq_card]
  exact Finset.card_le_univ _

/-- PCNT has room for the count of even lanes. -/
theorem toNat_pcnt_evenCount (x : Vec3 Residue) : (BitVec.ofNat 2 (evenCount x)).toNat = evenCount x := by
  rw [BitVec.toNat_ofNat]
  exact Nat.mod_eq_of_lt (Nat.lt_succ_of_le (evenCount_le x))

theorem classify_eq_add {n : Nat} (h : n ≤ 1) : classify n = 0#2 := if_pos h

theorem classify_two : classify 2 = 1#2 := rfl

theorem classify_eq_mul {n : Nat} (h : 3 ≤ n) : classify n = 2#2 := by
  rw [classify, if_neg (by omega), if_neg (by omega)]

/-! ## The operation (R97, R183) -/

theorem exists_effOp {op : OpSel} {f : BitVec 2} (h : ¬ noFlag op f) : ∃ o, effOp op f = some o :=
  Option.ne_none_iff_exists'.1 fun hnone => h (effOp_eq_none.1 hnone)

/-- OP and TFLAG name at most one operation. -/
theorem effOp_unique {op : OpSel} {f : BitVec 2} {o o' : TwistOp} (ho : effOp op f = some o) (h : namesOp op f o') :
    o = o' :=
  Option.some.inj (ho.symm.trans (effOp_eq_some.2 h))

/-! ## Numbers that share a factor with M (R10, R190) -/

/-- M over the factor it shares with `a` is below M, and its product with `a` is a multiple of M. -/
theorem exists_dvd_mul_of_gcd_ne_one {a m : Nat} (hm : 0 < m) (h : Nat.gcd a m ≠ 1) :
    ∃ q, 0 < q ∧ q < m ∧ m ∣ a * q := by
  have hdvd : Nat.gcd a m ∣ m := Nat.gcd_dvd_right a m
  have hpos : 0 < Nat.gcd a m := Nat.gcd_pos_of_pos_right a hm
  refine ⟨m / Nat.gcd a m, Nat.div_pos (Nat.le_of_dvd hm hdvd) hpos, Nat.div_lt_self hm ?_, ?_⟩
  · exact lt_of_le_of_ne hpos h.symm
  · rw [← Nat.mul_div_assoc a hdvd]
    exact Nat.dvd_lcm_right a m

/-! ## The lanes (R184, R187) -/

section Lanes

variable {m : Residue} (hm : 2 ≤ m.toNat)
include hm

theorem val_twistLane (o : TwistOp) (sc x : Residue) :
    (o = .add → val (twistLane m o sc x) = (val x + val sc) % val m) ∧
      (o = .sub → val (twistLane m o sc x) = (val x - val sc) % val m) ∧
      (o = .mul → val (twistLane m o sc x) = val x * val sc % val m) := by
  refine ⟨?_, ?_, ?_⟩
  · rintro rfl
    exact val_reduce hm _
  · rintro rfl
    exact val_reduce hm _
  · rintro rfl
    exact val_reduce hm _

theorem val_untwistLane {o : TwistOp} {sc x y : Residue} (h : untwistLane m o sc x = some y) :
    (o = .add → val y = (val x - val sc) % val m) ∧ (o = .sub → val y = (val x + val sc) % val m) ∧
      (o = .mul → ∃ t, invM m sc = some t ∧ val y = val x * val t % val m) := by
  refine ⟨?_, ?_, ?_⟩
  · rintro rfl
    cases h
    exact val_reduce hm _
  · rintro rfl
    cases h
    exact val_reduce hm _
  · rintro rfl
    obtain ⟨t, ht, rfl⟩ := Option.map_eq_some_iff.1 h
    exact ⟨t, ht, val_reduce hm _⟩

/-- UNTWIST has a result unless it multiplies by a non-unit. -/
theorem exists_untwistVec {o : TwistOp} {sc : Residue} (hunit : o = .mul → Nat.gcd sc.toNat m.toNat = 1)
    (x : Vec3 Residue) : ∃ y, untwistVec m o sc x = some y := by
  refine Option.ne_none_iff_exists'.1 fun hnone => ?_
  obtain ⟨hmul, hinv⟩ := untwistVec_eq_none.1 hnone
  obtain ⟨t, ht⟩ := invM_of_coprime hm (hunit hmul)
  exact absurd (hinv.symm.trans ht) (Option.some_ne_none t).symm

/-- A scalar that shares a factor with M takes to 0 not 0 alone. -/
theorem exists_twistLane_mul_collision {sc : Residue} (h : Nat.gcd sc.toNat m.toNat ≠ 1) :
    ∃ x y : Residue, x ≠ y ∧ x.toNat < m.toNat ∧ y.toNat < m.toNat ∧
      twistLane m .mul sc x = twistLane m .mul sc y := by
  have hpos : 0 < m.toNat := Nat.zero_lt_of_lt hm
  obtain ⟨q, hq, hlt, hdvd⟩ := exists_dvd_mul_of_gcd_ne_one hpos h
  have hx : (BitVec.ofNat 8 q).toNat = q := by
    rw [BitVec.toNat_ofNat, Nat.mod_eq_of_lt (hlt.trans m.isLt)]
  have hzero : val (BitVec.ofNat 8 q) * val sc % val m = 0 := by
    unfold val
    rw [hx, mul_comm]
    exact_mod_cast Nat.mod_eq_zero_of_dvd hdvd
  refine ⟨BitVec.ofNat 8 q, 0#8, fun h0 => ?_, by rwa [hx], hpos, reduce_congr m ?_⟩
  · rw [h0] at hx
    exact hq.ne hx
  · simpa [val] using hzero

theorem exists_twistVec_mul_collision {sc : Residue} (h : Nat.gcd sc.toNat m.toNat ≠ 1) :
    ∃ x y : Vec3 Residue, x ≠ y ∧ (∀ l, (x.get l).toNat < m.toNat) ∧ (∀ l, (y.get l).toNat < m.toNat) ∧
      twistVec m .mul sc x = twistVec m .mul sc y := by
  obtain ⟨x, y, hne, hx, hy, hxy⟩ := exists_twistLane_mul_collision hm h
  refine ⟨.ofFn fun _ => x, .ofFn fun _ => y, fun heq => hne (congrArg Vec3.l0 heq), fun l => ?_, fun l => ?_, ?_⟩
  · rwa [Vec3.get_ofFn]
  · rwa [Vec3.get_ofFn]
  · exact Vec3.ext_get fun l => by rw [twistVec_get, twistVec_get, Vec3.get_ofFn, Vec3.get_ofFn, hxy]

end Lanes

/-! ## What a completion with a new V[n] leaves (R121) -/

@[simp] theorem State.scalar_setV (s : State) (n : VReg) (x : Vec3 Residue) (src : ScalarSrc) :
    (s.setV n x).scalar src = s.scalar src := by
  cases src <;> rfl

@[simp] theorem State.scalar_finish (s : State) (src : ScalarSrc) : s.finish.scalar src = s.scalar src := by
  cases src <;> rfl

theorem State.get_setV_finish (s : State) (n : VReg) (x : Vec3 Residue) : (s.setV n x).finish.v.get n = x :=
  VFile.get_set_self s.v n x

/-! ## The statements -/

/-- Settles O24: PCNT has room for the count of even lanes, and the classifier sees that count. -/
theorem parityCountsEvenLanes : Obligations.ParityCountsEvenLanes := by
  refine ⟨fun vs => decode_of_encode_eq (encode_parity vs) rfl,
    fun _ hopc => illegal_of_bits_outside_operands hopc rfl, fun vs s => ⟨_, exec_parity vs s, rfl, ?_⟩⟩
  rw [State.finish_pcnt, State.finish_tflag, State.setParity_pcnt, State.setParity_tflag, toNat_pcnt_evenCount]
  refine ⟨evenCount_eq_card _, classify_eq_add, fun h => ?_, classify_eq_mul⟩
  rw [h, classify_two]

/-- Settles O25: a legal scalar and a flag leave one operation, and each lane is its exact result reduced once. -/
theorem twistWritesTheLanes : Obligations.TwistWritesTheLanes := by
  refine ⟨fun vd vs op src hsrc => decode_of_encode_eq (encode_twist vd vs op src) (ScalarSrc.legal_iff.2 hsrc),
    fun _ hopc => illegal_twist_word (.inl hopc), fun vd vs op src s hm => ⟨?_, exec_twist_noFlag, fun a ha hop => ?_⟩⟩
  · rintro rfl
    exact exec_twist_reserved vd vs op s
  · obtain ⟨o, ho⟩ := exists_effOp hop
    refine ⟨_, exec_twist_ok (scalar_eq_some_iff.2 ha) ho, rfl, fun n hn => VFile.get_set_ne s.v hn _, fun l => ?_⟩
    rw [State.get_setV_finish, twistVec_get]
    obtain ⟨hadd, hsub, hmul⟩ := val_twistLane hm o a ((s.v.get vs).get l)
    exact ⟨fun h => hadd (effOp_unique ho h), fun h => hsub (effOp_unique ho h), fun h => hmul (effOp_unique ho h)⟩

/-- Settles O26: whether the scalar is coprime to M decides the case of Multiply; Add and Subtract are always defined. -/
theorem untwistWritesTheLanes : Obligations.UntwistWritesTheLanes := by
  refine ⟨fun vd vs op src hsrc => decode_of_encode_eq (encode_untwist vd vs op src) (ScalarSrc.legal_iff.2 hsrc),
    fun _ hopc => illegal_twist_word (.inr hopc),
    fun vd vs op src s hm => ⟨?_, exec_untwist_noFlag, fun a ha => ⟨fun hmul hnot => ?_, fun hop hunit => ?_⟩⟩⟩
  · rintro rfl
    exact exec_untwist_reserved vd vs op s
  · exact exec_untwist_noninv (scalar_eq_some_iff.2 ha) (multiplies_iff.1 hmul) (invM_of_not_coprime hnot)
  · obtain ⟨o, ho⟩ := exists_effOp hop
    have hcoprime : o = .mul → Nat.gcd a.toNat s.modulus.toNat = 1 := by
      rintro rfl
      exact hunit (multiplies_iff.2 ho)
    obtain ⟨x, hx⟩ := exists_untwistVec hm hcoprime (s.v.get vs)
    refine ⟨_, exec_untwist_ok (scalar_eq_some_iff.2 ha) ho hx, rfl, fun n hn => VFile.get_set_ne s.v hn _, fun l => ?_⟩
    rw [State.get_setV_finish]
    obtain ⟨hadd, hsub, hmul⟩ := val_untwistLane hm (untwistVec_eq_some.1 hx l)
    refine ⟨fun h => hadd (effOp_unique ho h), fun h => hsub (effOp_unique ho h), fun h => ?_⟩
    obtain ⟨u, hu, hval⟩ := hmul (effOp_unique ho h)
    obtain ⟨hlt, -⟩ := invM_eq_some hu
    exact ⟨val u, val_nonneg u, val_lt_iff.2 hlt, invM_mul_emod hu, hval⟩

/-- Settles O31: TWIST leaves all UNTWIST reads but the block, and the lane functions cancel mod M. -/
theorem untwistReversesTwist : Obligations.UntwistReversesTwist := by
  intro s vd vs op src o a hm hred ha hop hunit
  refine ⟨_, exec_twist_ok ha (effOp_eq_some.2 hop), ⟨rfl, rfl, by simp⟩, ?_⟩
  intro u ve vs' op' src' hmod hblock ha' hop'
  have hback : untwistVec u.modulus o a (u.v.get vs') = some (s.v.get vs) := by
    rw [hmod, hblock, State.get_setV_finish]
    exact untwistVec_twistVec hm hunit (hred.vBelow vs)
  exact ⟨_, exec_untwist_ok ha' (effOp_eq_some.2 hop') hback, State.get_setV_finish u ve _⟩

/-- Settles O32: TWIST needs no inverse and UNTWIST does; the two blocks are the constant ones of 0 and of M over the
factor the scalar shares with it. -/
theorem nonUnitMultiplyLosesInformation : Obligations.NonUnitMultiplyLosesInformation := by
  intro s vd ve vs op src a hm ha hmul hnot
  have ho : effOp op s.tflag = some .mul := multiplies_iff.1 hmul
  refine ⟨⟨_, exec_twist_ok ha ho, rfl, exec_untwist_noninv (by simpa using ha) ho (invM_of_not_coprime hnot)⟩, ?_⟩
  obtain ⟨x, y, hne, hx, hy, hxy⟩ := exists_twistVec_mul_collision hm hnot
  refine ⟨x, y, _, _, hne, hx, hy, exec_twist_ok (by simpa using ha) ho, exec_twist_ok (by simpa using ha) ho, ?_⟩
  simpa using hxy

end Sys2Proof.Machine
end

section
/-! Errors, the interrupt line and stops (O15, O47, O55): what a completion leaves of STATUS by whether the command has a
cause of R210, the level of `irq`, and that a turn answers a next state unless it is an access in reset. -/

namespace Sys2Proof.Machine

/-! ## STATUS at a completion (R121, R211, R215) -/

namespace Completes

variable {i : Instr} {s t : State} (hc : Completes i s t)
include hc

theorem done_eq : t.status.done = true := by
  cases hc <;> rfl

/-- A command with no cause of R210 leaves ERR and ERRCODE. -/
theorem error_eq (hm : s.modLegal) (hno : ∀ c, ¬ commandFails i s c) :
    t.status.err = s.status.err ∧ t.status.errcode = s.status.errcode := by
  cases hc with
  | failed _ _ c _ _ _ hf => exact absurd (hf hm) (hno c)
  | _ => exact ⟨rfl, rfl⟩

end Completes

/-! ## The interrupt line (R217) -/

theorem irq_iff (s : State) : s.irq = true ↔
    (s.status.done = true ∧ s.ctrl.ieDone = true) ∨ (s.status.err = true ∧ s.ctrl.ieErr = true) := by
  simp [State.irq]

theorem irq_of_done {s : State} (hdone : s.status.done = true) (hie : s.ctrl.ieDone = true) : s.irq = true :=
  (irq_iff s).2 (.inl ⟨hdone, hie⟩)

theorem irq_eq_false {s : State} (hdone : s.status.done = false) (herr : s.status.err = false) : s.irq = false := by
  simp [State.irq, hdone, herr]

/-! ## Which turns answer a next state (R216, R240) -/

theorem resetTurn_answers (level : Bool) (s : State) : ∃ t, resetTurn level s = .next t := by
  unfold resetTurn
  split
  · exact ⟨_, rfl⟩
  · exact ⟨_, rfl⟩

theorem step_engine_answers {s : State} (he : s.engineNext) : ∃ t, step s = .next t := by
  obtain ⟨t, ht, -⟩ := complete_cases s.popped
  exact ⟨t, (step_engine he).trans ht⟩

/-- An access is answered out of reset, and faults in reset (U6, log 14). -/
theorem step_access_answers_or_faults {s : State} {q : BusRequest} (hq : s.nextAccess q) :
    (∃ t, step s = .next t) ∨ (s.rstN = false ∧ step s = .fault .accessInReset) := by
  rw [step_access hq]
  cases hr : s.rstN with
  | false => exact .inr ⟨rfl, busTurn_inReset (s := s.popped) hr q⟩
  | true =>
    obtain ⟨a, ha⟩ | ⟨-, -, a, ha⟩ := busTurn_cases (s := s.popped) hr q
    · exact .inl ⟨_, ha⟩
    · exact .inl ⟨_, ha⟩

/-- A next turn that is no access of the window is answered, in reset too. -/
theorem step_answers_of_no_access {s : State} (hno : ∀ q, ¬ s.nextAccess q) : ∃ t, step s = .next t := by
  cases hin : s.inputs with
  | nil => exact step_engine_answers (.inl hin)
  | cons e rest =>
    cases e with
    | bus q => exact absurd (.inl ⟨rest, hin⟩) (hno q)
    | engine => exact step_engine_answers (.inr ⟨rest, hin⟩)
    | platform a =>
      cases ho : Config.windowOffset a.addr with
      | none => exact ⟨_, (step_platform hin).trans (platformTurn_outside ho _)⟩
      | some off => exact absurd (.inr ⟨a, off, rest, hin, ho, rfl⟩) (hno (a.request off))
    | rst level =>
      rw [step_rst hin]
      exact resetTurn_answers level s.popped

/-! ## The statements -/

/-- Settles O15: a command with a cause of R210 answers the failed state, and no other completion touches ERR or
ERRCODE. -/
theorem failingCommandsChangeOnlyStatus : Obligations.FailingCommandsChangeOnlyStatus := by
  refine fun i s hm => ⟨fun c => exec_of_commandFails, fun hno => ?_⟩
  obtain ⟨t, ht, hc⟩ := exec_completes i s
  exact ⟨t, ht, hc.pend_eq, hc.done_eq, hc.error_eq hm hno⟩

/-- Settles O55, by whether the next turn is an access of the window. -/
theorem onlyAccessInResetStops : Obligations.OnlyAccessInResetStops := by
  intro s
  by_cases hacc : ∃ q, s.nextAccess q
  · obtain ⟨q, hq⟩ := hacc
    exact (step_access_answers_or_faults hq).imp_right fun ⟨hr, hfault⟩ => ⟨hr, ⟨q, hq⟩, hfault⟩
  · exact .inl (step_answers_of_no_access (not_exists.1 hacc))

/-- Settles O47: a completion sets DONE and leaves CTRL, and an issue clears DONE. -/
theorem interruptFollowsDoneAndErr : Obligations.InterruptFollowsDoneAndErr := by
  refine ⟨irq_iff, fun i s t h hie => ?_, fun s w herr => irq_eq_false rfl herr⟩
  have hc := completes_of_exec h
  obtain ⟨hctrl, -⟩ := hc.frame
  exact irq_of_done hc.done_eq (hctrl ▸ hie)

end Sys2Proof.Machine
end

section
/-! The two resets (O43, O46): the soft reset by a write to CTRL, and the pin `rst_n`. -/

namespace Sys2Proof.Machine

/-- Out of reset the reset registers stand in the reset state itself, pin included. -/
theorem toReset_running {s : State} (hr : s.rstN = true) :
    s.toReset = { State.reset with inputs := s.inputs, resp := s.resp, draws := s.draws } := by
  rw [State.toReset, hr]
  rfl

/-- The pin driven to 0, or driven at all while it is 0 (R240). -/
theorem resetTurn_resets {level : Bool} {s : State} (h : level = false ∨ s.rstN = false) :
    resetTurn level s = .next { s.toReset with rstN := level } := by
  rcases h with rfl | h
  · rw [resetTurn, Bool.and_false]
    rfl
  · rw [resetTurn, h, Bool.false_and]
    rfl

/-- Settles O43: the write reaches CTRL idle and busy alike, and its bit 31 makes it the soft reset. -/
theorem softResetRestoresEveryRegister : Obligations.SoftResetRestoresEveryRegister := by
  intro s q hr hq hw hsize hoff hbit
  have hreg : Reg.ofOffset q.offset = .ctrl := ofOffset_eq_ctrl.2 hoff
  refine ⟨⟨s.draw, false⟩, rfl, (step_write hr hq hw hsize (hoff ▸ rfl)).trans ?_⟩
  rw [hreg, busWrite_ctrl, writeCtrl_reset hbit, toReset_running (s := s.popped) hr]
  rfl

/-- Settles O46: the turn of the pin resets, and an access meets the port in reset. -/
theorem hardwareResetRestoresEveryRegister : Obligations.HardwareResetRestoresEveryRegister := by
  refine fun s => ⟨fun level rest hin hlow => ?_, fun q hr hq => ?_⟩
  · rw [step_rst hin, resetTurn_resets (s := s.popped) hlow, State.toReset, State.popped_inputs, hin]
    rfl
  · exact (step_access hq).trans (busTurn_inReset (s := s.popped) hr q)

end Sys2Proof.Machine
end
